-- ==== Sys2Proof/Word.lean ====
section
/-! DEFINITION. The word types of the model. -/

namespace Sys2Proof

/-- A register, address or bus value. Held in 64 bits; when XLEN = 32 the upper 32 bits are zero
(log 2). -/
abbrev Word := BitVec 64

/-- One byte of memory (10_state.md R88). -/
abbrev Byte := BitVec 8

/-- A 5-bit register field: the number of an integer or floating-point register. -/
abbrev Reg := BitVec 5

/-- A 3-bit register field of a compressed instruction (30_encoding.md R170). -/
abbrev CReg := BitVec 3

end Sys2Proof
end

