-- ==== Sys2Proof/Config.lean ====
section
/-! DEFINITION. The parameters of the hart (00_scope.md R10 to R17, 92_eei_decisions.md) and the
free values of the model. A configuration is plain data, fixed for a run. -/

namespace Sys2Proof

/-- XLEN (00_scope.md R10). -/
inductive Xlen where
  | rv32
  | rv64
deriving DecidableEq, Repr

/-- XLEN as a number of bits. -/
def Xlen.bits : Xlen → Nat
  | .rv32 => 32
  | .rv64 => 64

/-- XLEN as a number of bytes: the width of a Zcmp access and of a Zcmt table entry. -/
def Xlen.bytes : Xlen → Nat
  | .rv32 => 4
  | .rv64 => 8

/-- The kind of a region of MEMMAP (20_memory.md R104). -/
inductive RegionKind where
  | main
  | io
deriving DecidableEq, Repr

/-- Which A-extension instructions a region supports (20_memory.md R104). -/
inductive AtomicSupport where
  | none
  | amo
  | amoLrsc
deriving DecidableEq, Repr

/-- One region of MEMMAP (20_memory.md R104). -/
structure Region where
  base : Nat
  size : Nat
  kind : RegionKind
  r : Bool
  w : Bool
  x : Bool
  atomics : AtomicSupport
  misalignedOk : Bool
deriving DecidableEq, Repr

/-- The parameter MISALIGNED (20_memory.md R111). -/
inductive Misaligned where
  | trap
  | support
deriving DecidableEq, Repr

/-- The parameter EBREAK_TVAL (60_exceptions.md R728). -/
inductive EbreakTval where
  | pc
  | zero
deriving DecidableEq, Repr

/-- The parameter PLATFORM (60_exceptions.md R770). -/
inductive Platform where
  | clint
  | none
deriving DecidableEq, Repr

/-- The kinds of memory access: what permission each needs and which exceptions it raises (20_memory.md R105, R112). -/
inductive Access where
  /-- The fetch of an instruction parcel. -/
  | fetch
  /-- The table read of `cm.jt` and `cm.jalt` (48_zc.md R699). -/
  | table
  | load
  | store
  | lr
  | sc
  | amo
  /-- A load of `cm.pop`, `cm.popret`, `cm.popretz`. -/
  | pop
  /-- A store of `cm.push`. -/
  | push
deriving DecidableEq, Repr

/-- One byte of one read of a device: what the free value the device answers depends on (log 12). -/
structure DeviceRead where
  /-- The draw counter of the state. -/
  draw : Nat
  kind : Access
  va : Word
  /-- The level of a page-table read (20_memory.md R116); `none` for the access itself. -/
  level : Option Nat
  /-- The physical address of the byte. -/
  pa : Nat
deriving DecidableEq, Repr

/-- One value for each parameter of 00_scope.md R10 to R15 and 92_eei_decisions.md. -/
structure Config where
  xlen : Xlen
  rv32e : Bool
  extM : Bool
  extA : Bool
  extF : Bool
  extD : Bool
  extC : Bool
  extZba : Bool
  extZbb : Bool
  extZbc : Bool
  extZbs : Bool
  extZfh : Bool
  extZcb : Bool
  extZcmp : Bool
  extZcmt : Bool
  extZicond : Bool
  extZicsr : Bool
  extZifencei : Bool
  extS : Bool
  extU : Bool
  /-- HARTS (R14). -/
  harts : Nat
  /-- The identifier of this hart, 0 .. HARTS-1 (R14). -/
  hartId : Nat
  /-- RESET_PC (70_reset_and_hazards.md R791). -/
  resetPc : Word
  /-- MEMMAP without the CLINT block, which `platform` and `clintBase` describe (20_memory.md R104). -/
  memMap : List Region
  misaligned : Misaligned
  /-- RESERVATION_GRANULE in bytes (20_memory.md R141). -/
  granule : Nat
  /-- TRANSLATION_MODES holds Sv32 (XLEN = 32) or Sv39 (XLEN = 64) beside Bare (20_memory.md R120). -/
  paging : Bool
  /-- ASIDLEN (20_memory.md R121). -/
  asidLen : Nat
  /-- WFI_U (60_exceptions.md R765). -/
  wfiU : Bool
  ebreakTval : EbreakTval
  /-- FLT_FLE_SIGNALING (44_fd.md R400). -/
  fltFleSignaling : Bool
  /-- MTVEC_VECTORED (10_state.md R62). -/
  mtvecVectored : Bool
  platform : Platform
  /-- CLINT_BASE (60_exceptions.md R770). -/
  clintBase : Nat
deriving DecidableEq, Repr

namespace Config

/-- The size of the CLINT block (60_exceptions.md R770). -/
def clintSize : Nat := 0x10000

/-- The CLINT block as a region of MEMMAP: `io`, RW, no atomics (60_exceptions.md R770). -/
def clintRegion (c : Config) : Region :=
  { base := c.clintBase, size := clintSize, kind := .io, r := true, w := true, x := false,
    atomics := .none, misalignedOk := false }

/-- The whole MEMMAP: the CLINT block, when the platform has one, and the other regions. -/
def regions (c : Config) : List Region :=
  match c.platform with
  | .clint => c.clintRegion :: c.memMap
  | .none => c.memMap

/-- The default main region (20_memory.md R104). -/
def mainRegion : Region :=
  { base := 0x80000000, size := 0x08000000, kind := .main, r := true, w := true, x := true,
    atomics := .amoLrsc, misalignedOk := true }

/-- The configuration after reset: the largest one INDEX.md names, with every parameter that has a
default at its default (92_eei_decisions.md). DESIGN CHOICE: XLEN and the extensions have no default
(log 1). -/
def default : Config :=
  { xlen := .rv64, rv32e := false, extM := true, extA := true, extF := true, extD := true,
    extC := true, extZba := true, extZbb := true, extZbc := true, extZbs := true, extZfh := true,
    extZcb := true, extZcmp := false, extZcmt := false, extZicond := true, extZicsr := true,
    extZifencei := true, extS := true, extU := true, harts := 1, hartId := 0,
    resetPc := 0x80000000, memMap := [mainRegion], misaligned := .trap, granule := 8,
    paging := true, asidLen := 0, wfiU := false, ebreakTval := .pc, fltFleSignaling := true,
    mtvecVectored := true, platform := .clint, clintBase := 0x02000000 }

/-- The default configuration with Zcmp and Zcmt in place of D (00_scope.md R17). -/
def rv64Zc : Config := { default with extD := false, extZcmp := true, extZcmt := true }

/-- The default configuration at XLEN = 32. -/
def rv32 : Config := { default with xlen := .rv32 }

/-- XLEN = 32 with Zcmp and Zcmt in place of D. -/
def rv32Zc : Config := { rv32 with extD := false, extZcmp := true, extZcmt := true }

/-- No byte belongs to both regions. -/
def disjoint (a b : Region) : Bool :=
  a.base + a.size ≤ b.base || b.base + b.size ≤ a.base

/-- No two regions of the list share a byte (20_memory.md R104). -/
def pairwiseDisjoint : List Region → Bool
  | [] => true
  | a :: l => l.all (disjoint a) && pairwiseDisjoint l

/-- The implications between extensions of 00_scope.md R12, R13, R17. -/
def extensionsOk (c : Config) : Bool :=
  (!c.extD || c.extF) && (!c.extZfh || c.extF) && (!c.extS || c.extU) &&
  (!(c.extZcb || c.extZcmp || c.extZcmt) || c.extC) && (!c.extZcmt || c.extZicsr) &&
  (!c.extF || c.extZicsr) && (!(c.extZcmp || c.extZcmt) || !(c.extC && c.extD)) &&
  (!c.rv32e || c.xlen == .rv32)

/-- How many `mtimecmp` registers fit below `mtime` in the CLINT block (DEDUCED from 60_exceptions.md R770). -/
def maxHarts : Nat := 4095

/-- The ranges of the numeric parameters (table of 92_eei_decisions.md). -/
def rangesOk (c : Config) : Bool :=
  (1 ≤ c.harts : Bool) && (c.hartId < c.harts : Bool) &&
  (c.platform == .none || (c.harts ≤ maxHarts : Bool)) &&
  (c.granule == 8 || c.granule == 16 || c.granule == 32 || c.granule == 64 ||
    (c.granule == 4 && !(c.extA && c.xlen == .rv64))) &&
  (!c.paging || c.extS) &&
  (match c.xlen with
   | .rv32 => (c.asidLen ≤ 9 : Bool)
   | .rv64 => (c.asidLen ≤ 16 : Bool))

/-- MEMMAP, CLINT_BASE and RESET_PC fit together (20_memory.md R104, 70_reset_and_hazards.md R791,
93_implementation_defined.md part 2). R104 asks of the regions only that they be disjoint, so nothing else is asked of
where they lie. -/
def mapOk (c : Config) : Bool :=
  pairwiseDisjoint c.regions && c.clintBase % clintSize == 0 && c.resetPc.toNat % 4 == 0 &&
  (c.resetPc.toNat < 2 ^ c.xlen.bits : Bool) &&
  c.regions.any (fun r =>
    r.x && (r.base ≤ c.resetPc.toNat : Bool) && (c.resetPc.toNat + 2 ≤ r.base + r.size : Bool))

/-- The configuration is one the spec admits; `step` refuses every other
(93_implementation_defined.md part 2). -/
def wf (c : Config) : Bool := c.extensionsOk && c.rangesOk && c.mapOk

/-! ### Free values

Each is a constant with no body, applied to the draw counter of the state: nothing can be proved of
its value (log 6). -/

/-- Whether an `sc` with a valid, covering reservation fails all the same (43_a.md R355). That a constrained loop meets a
draw that lets it succeed (20_memory.md R143) is the assumption `Machine.FairRun` of Safety.lean. -/
opaque scFails : Nat → Bool

/-- How much `mcycle` advances after a step (10_state.md R80). -/
opaque mcycleAdvance : Nat → Word

/-- How much `mtime` advances after a step (60_exceptions.md R771). -/
opaque mtimeAdvance : Nat → Word

/-- Whether a legal `wfi` enters the waiting state (60_exceptions.md R765). -/
opaque wfiWaits : Nat → Bool

/-- Whether a waiting hart wakes with no interrupt pending and enabled (60_exceptions.md R765). -/
opaque spuriousWake : Nat → Bool

/-- One byte a device answers to a read of an `io` region (20_memory.md R114). -/
opaque deviceByte : DeviceRead → Byte

/-- The order of the byte accesses of a supported misaligned access at an address, as the number of a permutation
(20_memory.md R111). -/
opaque byteOrder : Nat → Word → Nat

end Config

end Sys2Proof
end

