-- ==== Sys2Proof/Syntax.lean ====
section
/-! DEFINITION. The instructions: one constructor of `Instr` for each row of spec/opcode_table.json. An operand is the
raw field of the encoding (30_encoding.md R152 to R176): a register number, an immediate without its implied low zero
bits (a branch or jump offset is the field, half the byte offset), a shift amount, a rounding-mode field. Fields the
hardware ignores (`fence`, `fence.i`, `c.nop`) are kept, so that the bits of an instruction can be rebuilt from it. The rows
with 32 bits come first: the compiled runtime represents no constructor past the 245th (see WellFormed.lean). -/

namespace Sys2Proof

/-- An instruction. The docstring of a constructor is its mnemonic and its rule. -/
inductive Instr where
  /-- `lui`: R221. -/
  | lui (rd : Reg) (imm : BitVec 20)
  /-- `auipc`: R222. -/
  | auipc (rd : Reg) (imm : BitVec 20)
  /-- `addi`: R223. -/
  | addi (rd rs1 : Reg) (imm : BitVec 12)
  /-- `slti`: R224. -/
  | slti (rd rs1 : Reg) (imm : BitVec 12)
  /-- `sltiu`: R225. -/
  | sltiu (rd rs1 : Reg) (imm : BitVec 12)
  /-- `xori`: R226. -/
  | xori (rd rs1 : Reg) (imm : BitVec 12)
  /-- `ori`: R227. -/
  | ori (rd rs1 : Reg) (imm : BitVec 12)
  /-- `andi`: R228. -/
  | andi (rd rs1 : Reg) (imm : BitVec 12)
  /-- `slli`: R229. -/
  | slli (rd rs1 : Reg) (shamt : BitVec 6)
  /-- `srli`: R230. -/
  | srli (rd rs1 : Reg) (shamt : BitVec 6)
  /-- `srai`: R231. -/
  | srai (rd rs1 : Reg) (shamt : BitVec 6)
  /-- `add`: R232. -/
  | add (rd rs1 rs2 : Reg)
  /-- `sub`: R233. -/
  | sub (rd rs1 rs2 : Reg)
  /-- `sll`: R234. -/
  | sll (rd rs1 rs2 : Reg)
  /-- `slt`: R235. -/
  | slt (rd rs1 rs2 : Reg)
  /-- `sltu`: R236. -/
  | sltu (rd rs1 rs2 : Reg)
  /-- `xor`: R237. -/
  | xor (rd rs1 rs2 : Reg)
  /-- `srl`: R238. -/
  | srl (rd rs1 rs2 : Reg)
  /-- `sra`: R239. -/
  | sra (rd rs1 rs2 : Reg)
  /-- `or`: R240. -/
  | or (rd rs1 rs2 : Reg)
  /-- `and`: R241. -/
  | and (rd rs1 rs2 : Reg)
  /-- `fence`: R245. -/
  | fence (fm pred succ : BitVec 4) (rs1 rd : Reg)
  /-- `fence.i`: R246. -/
  | fence_i (imm : BitVec 12) (rs1 rd : Reg)
  /-- `csrrw`: R251. -/
  | csrrw (rd rs1 : Reg) (csr : BitVec 12)
  /-- `csrrs`: R252. -/
  | csrrs (rd rs1 : Reg) (csr : BitVec 12)
  /-- `csrrc`: R253. -/
  | csrrc (rd rs1 : Reg) (csr : BitVec 12)
  /-- `csrrwi`: R254. -/
  | csrrwi (rd : Reg) (uimm : BitVec 5) (csr : BitVec 12)
  /-- `csrrsi`: R255. -/
  | csrrsi (rd : Reg) (uimm : BitVec 5) (csr : BitVec 12)
  /-- `csrrci`: R256. -/
  | csrrci (rd : Reg) (uimm : BitVec 5) (csr : BitVec 12)
  /-- `ecall`: R257. -/
  | ecall
  /-- `ebreak`: R258. -/
  | ebreak
  /-- `sret`: R259. -/
  | sret
  /-- `mret`: R260. -/
  | mret
  /-- `wfi`: R261. -/
  | wfi
  /-- `sfence.vma`: R262. -/
  | sfence_vma (rs1 rs2 : Reg)
  /-- `lb`: R264. -/
  | lb (rd rs1 : Reg) (imm : BitVec 12)
  /-- `lh`: R265. -/
  | lh (rd rs1 : Reg) (imm : BitVec 12)
  /-- `lw`: R266. -/
  | lw (rd rs1 : Reg) (imm : BitVec 12)
  /-- `lbu`: R267. -/
  | lbu (rd rs1 : Reg) (imm : BitVec 12)
  /-- `lhu`: R268. -/
  | lhu (rd rs1 : Reg) (imm : BitVec 12)
  /-- `sb`: R269. -/
  | sb (rs1 rs2 : Reg) (imm : BitVec 12)
  /-- `sh`: R270. -/
  | sh (rs1 rs2 : Reg) (imm : BitVec 12)
  /-- `sw`: R271. -/
  | sw (rs1 rs2 : Reg) (imm : BitVec 12)
  /-- `jal`: R273. -/
  | jal (rd : Reg) (imm : BitVec 20)
  /-- `jalr`: R274. -/
  | jalr (rd rs1 : Reg) (imm : BitVec 12)
  /-- `beq`: R275. -/
  | beq (rs1 rs2 : Reg) (imm : BitVec 12)
  /-- `bne`: R276. -/
  | bne (rs1 rs2 : Reg) (imm : BitVec 12)
  /-- `blt`: R277. -/
  | blt (rs1 rs2 : Reg) (imm : BitVec 12)
  /-- `bge`: R278. -/
  | bge (rs1 rs2 : Reg) (imm : BitVec 12)
  /-- `bltu`: R279. -/
  | bltu (rs1 rs2 : Reg) (imm : BitVec 12)
  /-- `bgeu`: R280. -/
  | bgeu (rs1 rs2 : Reg) (imm : BitVec 12)
  /-- `addiw`, XLEN = 64: R300. -/
  | addiw (rd rs1 : Reg) (imm : BitVec 12)
  /-- `slliw`, XLEN = 64: R301. -/
  | slliw (rd rs1 : Reg) (shamt : BitVec 5)
  /-- `srliw`, XLEN = 64: R302. -/
  | srliw (rd rs1 : Reg) (shamt : BitVec 5)
  /-- `sraiw`, XLEN = 64: R303. -/
  | sraiw (rd rs1 : Reg) (shamt : BitVec 5)
  /-- `addw`, XLEN = 64: R304. -/
  | addw (rd rs1 rs2 : Reg)
  /-- `subw`, XLEN = 64: R305. -/
  | subw (rd rs1 rs2 : Reg)
  /-- `sllw`, XLEN = 64: R306. -/
  | sllw (rd rs1 rs2 : Reg)
  /-- `srlw`, XLEN = 64: R307. -/
  | srlw (rd rs1 rs2 : Reg)
  /-- `sraw`, XLEN = 64: R308. -/
  | sraw (rd rs1 rs2 : Reg)
  /-- `lwu`, XLEN = 64: R309. -/
  | lwu (rd rs1 : Reg) (imm : BitVec 12)
  /-- `ld`, XLEN = 64: R310. -/
  | ld (rd rs1 : Reg) (imm : BitVec 12)
  /-- `sd`, XLEN = 64: R311. -/
  | sd (rs1 rs2 : Reg) (imm : BitVec 12)
  /-- `mul`: R322. -/
  | mul (rd rs1 rs2 : Reg)
  /-- `mulh`: R323. -/
  | mulh (rd rs1 rs2 : Reg)
  /-- `mulhsu`: R324. -/
  | mulhsu (rd rs1 rs2 : Reg)
  /-- `mulhu`: R325. -/
  | mulhu (rd rs1 rs2 : Reg)
  /-- `div`: R326. -/
  | div (rd rs1 rs2 : Reg)
  /-- `divu`: R327. -/
  | divu (rd rs1 rs2 : Reg)
  /-- `rem`: R328. -/
  | rem (rd rs1 rs2 : Reg)
  /-- `remu`: R329. -/
  | remu (rd rs1 rs2 : Reg)
  /-- `mulw`, XLEN = 64: R330. -/
  | mulw (rd rs1 rs2 : Reg)
  /-- `divw`, XLEN = 64: R331. -/
  | divw (rd rs1 rs2 : Reg)
  /-- `divuw`, XLEN = 64: R332. -/
  | divuw (rd rs1 rs2 : Reg)
  /-- `remw`, XLEN = 64: R333. -/
  | remw (rd rs1 rs2 : Reg)
  /-- `remuw`, XLEN = 64: R334. -/
  | remuw (rd rs1 rs2 : Reg)
  /-- `lr.w`: R360. -/
  | lr_w (aq rl : Bool) (rd rs1 : Reg)
  /-- `sc.w`: R361. -/
  | sc_w (aq rl : Bool) (rd rs1 rs2 : Reg)
  /-- `amoswap.w`: R362. -/
  | amoswap_w (aq rl : Bool) (rd rs1 rs2 : Reg)
  /-- `amoadd.w`: R363. -/
  | amoadd_w (aq rl : Bool) (rd rs1 rs2 : Reg)
  /-- `amoxor.w`: R364. -/
  | amoxor_w (aq rl : Bool) (rd rs1 rs2 : Reg)
  /-- `amoand.w`: R365. -/
  | amoand_w (aq rl : Bool) (rd rs1 rs2 : Reg)
  /-- `amoor.w`: R366. -/
  | amoor_w (aq rl : Bool) (rd rs1 rs2 : Reg)
  /-- `amomin.w`: R367. -/
  | amomin_w (aq rl : Bool) (rd rs1 rs2 : Reg)
  /-- `amomax.w`: R368. -/
  | amomax_w (aq rl : Bool) (rd rs1 rs2 : Reg)
  /-- `amominu.w`: R369. -/
  | amominu_w (aq rl : Bool) (rd rs1 rs2 : Reg)
  /-- `amomaxu.w`: R370. -/
  | amomaxu_w (aq rl : Bool) (rd rs1 rs2 : Reg)
  /-- `lr.d`, XLEN = 64: R371. -/
  | lr_d (aq rl : Bool) (rd rs1 : Reg)
  /-- `sc.d`, XLEN = 64: R372. -/
  | sc_d (aq rl : Bool) (rd rs1 rs2 : Reg)
  /-- `amoswap.d`, XLEN = 64: R373. -/
  | amoswap_d (aq rl : Bool) (rd rs1 rs2 : Reg)
  /-- `amoadd.d`, XLEN = 64: R374. -/
  | amoadd_d (aq rl : Bool) (rd rs1 rs2 : Reg)
  /-- `amoxor.d`, XLEN = 64: R375. -/
  | amoxor_d (aq rl : Bool) (rd rs1 rs2 : Reg)
  /-- `amoand.d`, XLEN = 64: R376. -/
  | amoand_d (aq rl : Bool) (rd rs1 rs2 : Reg)
  /-- `amoor.d`, XLEN = 64: R377. -/
  | amoor_d (aq rl : Bool) (rd rs1 rs2 : Reg)
  /-- `amomin.d`, XLEN = 64: R378. -/
  | amomin_d (aq rl : Bool) (rd rs1 rs2 : Reg)
  /-- `amomax.d`, XLEN = 64: R379. -/
  | amomax_d (aq rl : Bool) (rd rs1 rs2 : Reg)
  /-- `amominu.d`, XLEN = 64: R380. -/
  | amominu_d (aq rl : Bool) (rd rs1 rs2 : Reg)
  /-- `amomaxu.d`, XLEN = 64: R381. -/
  | amomaxu_d (aq rl : Bool) (rd rs1 rs2 : Reg)
  /-- `fmadd.s`: R410. -/
  | fmadd_s (rd rs1 rs2 rs3 : Reg) (rm : BitVec 3)
  /-- `fmsub.s`: R411. -/
  | fmsub_s (rd rs1 rs2 rs3 : Reg) (rm : BitVec 3)
  /-- `fnmsub.s`: R412. -/
  | fnmsub_s (rd rs1 rs2 rs3 : Reg) (rm : BitVec 3)
  /-- `fnmadd.s`: R413. -/
  | fnmadd_s (rd rs1 rs2 rs3 : Reg) (rm : BitVec 3)
  /-- `fadd.s`: R414. -/
  | fadd_s (rd rs1 rs2 : Reg) (rm : BitVec 3)
  /-- `fsub.s`: R415. -/
  | fsub_s (rd rs1 rs2 : Reg) (rm : BitVec 3)
  /-- `fmul.s`: R416. -/
  | fmul_s (rd rs1 rs2 : Reg) (rm : BitVec 3)
  /-- `fdiv.s`: R417. -/
  | fdiv_s (rd rs1 rs2 : Reg) (rm : BitVec 3)
  /-- `fsqrt.s`: R418. -/
  | fsqrt_s (rd rs1 : Reg) (rm : BitVec 3)
  /-- `fsgnj.s`: R419. -/
  | fsgnj_s (rd rs1 rs2 : Reg)
  /-- `fsgnjn.s`: R420. -/
  | fsgnjn_s (rd rs1 rs2 : Reg)
  /-- `fsgnjx.s`: R421. -/
  | fsgnjx_s (rd rs1 rs2 : Reg)
  /-- `fmin.s`: R422. -/
  | fmin_s (rd rs1 rs2 : Reg)
  /-- `fmax.s`: R423. -/
  | fmax_s (rd rs1 rs2 : Reg)
  /-- `feq.s`: R427. -/
  | feq_s (rd rs1 rs2 : Reg)
  /-- `flt.s`: R428. -/
  | flt_s (rd rs1 rs2 : Reg)
  /-- `fle.s`: R429. -/
  | fle_s (rd rs1 rs2 : Reg)
  /-- `fclass.s`: R430. -/
  | fclass_s (rd rs1 : Reg)
  /-- `fcvt.w.s`: R424. -/
  | fcvt_w_s (rd rs1 : Reg) (rm : BitVec 3)
  /-- `fcvt.wu.s`: R425. -/
  | fcvt_wu_s (rd rs1 : Reg) (rm : BitVec 3)
  /-- `fcvt.l.s`, XLEN = 64: R462. -/
  | fcvt_l_s (rd rs1 : Reg) (rm : BitVec 3)
  /-- `fcvt.lu.s`, XLEN = 64: R463. -/
  | fcvt_lu_s (rd rs1 : Reg) (rm : BitVec 3)
  /-- `fcvt.s.w`: R431. -/
  | fcvt_s_w (rd rs1 : Reg) (rm : BitVec 3)
  /-- `fcvt.s.wu`: R432. -/
  | fcvt_s_wu (rd rs1 : Reg) (rm : BitVec 3)
  /-- `fcvt.s.l`, XLEN = 64: R464. -/
  | fcvt_s_l (rd rs1 : Reg) (rm : BitVec 3)
  /-- `fcvt.s.lu`, XLEN = 64: R465. -/
  | fcvt_s_lu (rd rs1 : Reg) (rm : BitVec 3)
  /-- `fmv.x.w`: R426. -/
  | fmv_x_w (rd rs1 : Reg)
  /-- `fmv.w.x`: R433. -/
  | fmv_w_x (rd rs1 : Reg)
  /-- `fmadd.d`: R434. -/
  | fmadd_d (rd rs1 rs2 rs3 : Reg) (rm : BitVec 3)
  /-- `fmsub.d`: R435. -/
  | fmsub_d (rd rs1 rs2 rs3 : Reg) (rm : BitVec 3)
  /-- `fnmsub.d`: R436. -/
  | fnmsub_d (rd rs1 rs2 rs3 : Reg) (rm : BitVec 3)
  /-- `fnmadd.d`: R437. -/
  | fnmadd_d (rd rs1 rs2 rs3 : Reg) (rm : BitVec 3)
  /-- `fadd.d`: R438. -/
  | fadd_d (rd rs1 rs2 : Reg) (rm : BitVec 3)
  /-- `fsub.d`: R439. -/
  | fsub_d (rd rs1 rs2 : Reg) (rm : BitVec 3)
  /-- `fmul.d`: R440. -/
  | fmul_d (rd rs1 rs2 : Reg) (rm : BitVec 3)
  /-- `fdiv.d`: R441. -/
  | fdiv_d (rd rs1 rs2 : Reg) (rm : BitVec 3)
  /-- `fsqrt.d`: R442. -/
  | fsqrt_d (rd rs1 : Reg) (rm : BitVec 3)
  /-- `fsgnj.d`: R443. -/
  | fsgnj_d (rd rs1 rs2 : Reg)
  /-- `fsgnjn.d`: R444. -/
  | fsgnjn_d (rd rs1 rs2 : Reg)
  /-- `fsgnjx.d`: R445. -/
  | fsgnjx_d (rd rs1 rs2 : Reg)
  /-- `fmin.d`: R446. -/
  | fmin_d (rd rs1 rs2 : Reg)
  /-- `fmax.d`: R447. -/
  | fmax_d (rd rs1 rs2 : Reg)
  /-- `feq.d`: R450. -/
  | feq_d (rd rs1 rs2 : Reg)
  /-- `flt.d`: R451. -/
  | flt_d (rd rs1 rs2 : Reg)
  /-- `fle.d`: R452. -/
  | fle_d (rd rs1 rs2 : Reg)
  /-- `fclass.d`: R453. -/
  | fclass_d (rd rs1 : Reg)
  /-- `fcvt.w.d`: R454. -/
  | fcvt_w_d (rd rs1 : Reg) (rm : BitVec 3)
  /-- `fcvt.wu.d`: R455. -/
  | fcvt_wu_d (rd rs1 : Reg) (rm : BitVec 3)
  /-- `fcvt.l.d`, XLEN = 64: R466. -/
  | fcvt_l_d (rd rs1 : Reg) (rm : BitVec 3)
  /-- `fcvt.lu.d`, XLEN = 64: R467. -/
  | fcvt_lu_d (rd rs1 : Reg) (rm : BitVec 3)
  /-- `fcvt.d.w`: R456. -/
  | fcvt_d_w (rd rs1 : Reg) (rm : BitVec 3)
  /-- `fcvt.d.wu`: R457. -/
  | fcvt_d_wu (rd rs1 : Reg) (rm : BitVec 3)
  /-- `fcvt.d.l`, XLEN = 64: R469. -/
  | fcvt_d_l (rd rs1 : Reg) (rm : BitVec 3)
  /-- `fcvt.d.lu`, XLEN = 64: R470. -/
  | fcvt_d_lu (rd rs1 : Reg) (rm : BitVec 3)
  /-- `fcvt.s.d`: R448. -/
  | fcvt_s_d (rd rs1 : Reg) (rm : BitVec 3)
  /-- `fcvt.d.s`: R449. -/
  | fcvt_d_s (rd rs1 : Reg) (rm : BitVec 3)
  /-- `fmv.x.d`, XLEN = 64: R468. -/
  | fmv_x_d (rd rs1 : Reg)
  /-- `fmv.d.x`, XLEN = 64: R471. -/
  | fmv_d_x (rd rs1 : Reg)
  /-- `flw`: R458. -/
  | flw (rd rs1 : Reg) (imm : BitVec 12)
  /-- `fsw`: R459. -/
  | fsw (rs1 rs2 : Reg) (imm : BitVec 12)
  /-- `fld`: R460. -/
  | fld (rd rs1 : Reg) (imm : BitVec 12)
  /-- `fsd`: R461. -/
  | fsd (rs1 rs2 : Reg) (imm : BitVec 12)
  /-- `fmadd.h`: R622. -/
  | fmadd_h (rd rs1 rs2 rs3 : Reg) (rm : BitVec 3)
  /-- `fmsub.h`: R623. -/
  | fmsub_h (rd rs1 rs2 rs3 : Reg) (rm : BitVec 3)
  /-- `fnmsub.h`: R624. -/
  | fnmsub_h (rd rs1 rs2 rs3 : Reg) (rm : BitVec 3)
  /-- `fnmadd.h`: R625. -/
  | fnmadd_h (rd rs1 rs2 rs3 : Reg) (rm : BitVec 3)
  /-- `fadd.h`: R626. -/
  | fadd_h (rd rs1 rs2 : Reg) (rm : BitVec 3)
  /-- `fsub.h`: R627. -/
  | fsub_h (rd rs1 rs2 : Reg) (rm : BitVec 3)
  /-- `fmul.h`: R628. -/
  | fmul_h (rd rs1 rs2 : Reg) (rm : BitVec 3)
  /-- `fdiv.h`: R629. -/
  | fdiv_h (rd rs1 rs2 : Reg) (rm : BitVec 3)
  /-- `fsqrt.h`: R630. -/
  | fsqrt_h (rd rs1 : Reg) (rm : BitVec 3)
  /-- `fsgnj.h`: R631. -/
  | fsgnj_h (rd rs1 rs2 : Reg)
  /-- `fsgnjn.h`: R632. -/
  | fsgnjn_h (rd rs1 rs2 : Reg)
  /-- `fsgnjx.h`: R633. -/
  | fsgnjx_h (rd rs1 rs2 : Reg)
  /-- `fmin.h`: R634. -/
  | fmin_h (rd rs1 rs2 : Reg)
  /-- `fmax.h`: R635. -/
  | fmax_h (rd rs1 rs2 : Reg)
  /-- `feq.h`: R643. -/
  | feq_h (rd rs1 rs2 : Reg)
  /-- `flt.h`: R644. -/
  | flt_h (rd rs1 rs2 : Reg)
  /-- `fle.h`: R645. -/
  | fle_h (rd rs1 rs2 : Reg)
  /-- `fclass.h`: R646. -/
  | fclass_h (rd rs1 : Reg)
  /-- `fcvt.w.h`: R647. -/
  | fcvt_w_h (rd rs1 : Reg) (rm : BitVec 3)
  /-- `fcvt.wu.h`: R648. -/
  | fcvt_wu_h (rd rs1 : Reg) (rm : BitVec 3)
  /-- `fcvt.l.h`, XLEN = 64: R655. -/
  | fcvt_l_h (rd rs1 : Reg) (rm : BitVec 3)
  /-- `fcvt.lu.h`, XLEN = 64: R656. -/
  | fcvt_lu_h (rd rs1 : Reg) (rm : BitVec 3)
  /-- `fcvt.h.w`: R650. -/
  | fcvt_h_w (rd rs1 : Reg) (rm : BitVec 3)
  /-- `fcvt.h.wu`: R651. -/
  | fcvt_h_wu (rd rs1 : Reg) (rm : BitVec 3)
  /-- `fcvt.h.l`, XLEN = 64: R657. -/
  | fcvt_h_l (rd rs1 : Reg) (rm : BitVec 3)
  /-- `fcvt.h.lu`, XLEN = 64: R658. -/
  | fcvt_h_lu (rd rs1 : Reg) (rm : BitVec 3)
  /-- `fcvt.s.h`: R636. -/
  | fcvt_s_h (rd rs1 : Reg) (rm : BitVec 3)
  /-- `fcvt.h.s`: R637. -/
  | fcvt_h_s (rd rs1 : Reg) (rm : BitVec 3)
  /-- `fcvt.d.h`: R638. -/
  | fcvt_d_h (rd rs1 : Reg) (rm : BitVec 3)
  /-- `fcvt.h.d`: R639. -/
  | fcvt_h_d (rd rs1 : Reg) (rm : BitVec 3)
  /-- `fcvt.q.h`: R641. -/
  | fcvt_q_h (rd rs1 : Reg) (rm : BitVec 3)
  /-- `fcvt.h.q`: R642. -/
  | fcvt_h_q (rd rs1 : Reg) (rm : BitVec 3)
  /-- `fmv.x.h`: R649. -/
  | fmv_x_h (rd rs1 : Reg)
  /-- `fmv.h.x`: R652. -/
  | fmv_h_x (rd rs1 : Reg)
  /-- `flh`: R653. -/
  | flh (rd rs1 : Reg) (imm : BitVec 12)
  /-- `fsh`: R654. -/
  | fsh (rs1 rs2 : Reg) (imm : BitVec 12)
  /-- `add.uw`, XLEN = 64: R553. -/
  | add_uw (rd rs1 rs2 : Reg)
  /-- `sh1add`: R554. -/
  | sh1add (rd rs1 rs2 : Reg)
  /-- `sh2add`: R556. -/
  | sh2add (rd rs1 rs2 : Reg)
  /-- `sh3add`: R558. -/
  | sh3add (rd rs1 rs2 : Reg)
  /-- `sh1add.uw`, XLEN = 64: R555. -/
  | sh1add_uw (rd rs1 rs2 : Reg)
  /-- `sh2add.uw`, XLEN = 64: R557. -/
  | sh2add_uw (rd rs1 rs2 : Reg)
  /-- `sh3add.uw`, XLEN = 64: R559. -/
  | sh3add_uw (rd rs1 rs2 : Reg)
  /-- `slli.uw`, XLEN = 64: R560. -/
  | slli_uw (rd rs1 : Reg) (shamt : BitVec 6)
  /-- `andn`: R561. -/
  | andn (rd rs1 rs2 : Reg)
  /-- `orn`: R562. -/
  | orn (rd rs1 rs2 : Reg)
  /-- `xnor`: R563. -/
  | xnor (rd rs1 rs2 : Reg)
  /-- `clz`: R564. -/
  | clz (rd rs1 : Reg)
  /-- `clzw`, XLEN = 64: R565. -/
  | clzw (rd rs1 : Reg)
  /-- `ctz`: R566. -/
  | ctz (rd rs1 : Reg)
  /-- `ctzw`, XLEN = 64: R567. -/
  | ctzw (rd rs1 : Reg)
  /-- `cpop`: R568. -/
  | cpop (rd rs1 : Reg)
  /-- `cpopw`, XLEN = 64: R569. -/
  | cpopw (rd rs1 : Reg)
  /-- `sext.b`: R574. -/
  | sext_b (rd rs1 : Reg)
  /-- `sext.h`: R575. -/
  | sext_h (rd rs1 : Reg)
  /-- `max`: R570. -/
  | max (rd rs1 rs2 : Reg)
  /-- `maxu`: R571. -/
  | maxu (rd rs1 rs2 : Reg)
  /-- `min`: R572. -/
  | min (rd rs1 rs2 : Reg)
  /-- `minu`: R573. -/
  | minu (rd rs1 rs2 : Reg)
  /-- `zext.h`, XLEN = 32: R576. -/
  | zext_h_rv32 (rd rs1 : Reg)
  /-- `zext.h`, XLEN = 64: R576. -/
  | zext_h_rv64 (rd rs1 : Reg)
  /-- `rol`: R577. -/
  | rol (rd rs1 rs2 : Reg)
  /-- `rolw`, XLEN = 64: R578. -/
  | rolw (rd rs1 rs2 : Reg)
  /-- `ror`: R579. -/
  | ror (rd rs1 rs2 : Reg)
  /-- `rori`: R580. -/
  | rori (rd rs1 : Reg) (shamt : BitVec 6)
  /-- `roriw`, XLEN = 64: R581. -/
  | roriw (rd rs1 : Reg) (shamt : BitVec 5)
  /-- `rorw`, XLEN = 64: R582. -/
  | rorw (rd rs1 rs2 : Reg)
  /-- `orc.b`: R583. -/
  | orc_b (rd rs1 : Reg)
  /-- `rev8`, XLEN = 32: R584. -/
  | rev8_rv32 (rd rs1 : Reg)
  /-- `rev8`, XLEN = 64: R584. -/
  | rev8_rv64 (rd rs1 : Reg)
  /-- `clmul`: R585. -/
  | clmul (rd rs1 rs2 : Reg)
  /-- `clmulh`: R586. -/
  | clmulh (rd rs1 rs2 : Reg)
  /-- `clmulr`: R587. -/
  | clmulr (rd rs1 rs2 : Reg)
  /-- `bclr`: R588. -/
  | bclr (rd rs1 rs2 : Reg)
  /-- `bclri`: R589. -/
  | bclri (rd rs1 : Reg) (shamt : BitVec 6)
  /-- `bext`: R590. -/
  | bext (rd rs1 rs2 : Reg)
  /-- `bexti`: R591. -/
  | bexti (rd rs1 : Reg) (shamt : BitVec 6)
  /-- `binv`: R592. -/
  | binv (rd rs1 rs2 : Reg)
  /-- `binvi`: R593. -/
  | binvi (rd rs1 : Reg) (shamt : BitVec 6)
  /-- `bset`: R594. -/
  | bset (rd rs1 rs2 : Reg)
  /-- `bseti`: R595. -/
  | bseti (rd rs1 : Reg) (shamt : BitVec 6)
  /-- `czero.eqz`: R711. -/
  | czero_eqz (rd rs1 rs2 : Reg)
  /-- `czero.nez`: R712. -/
  | czero_nez (rd rs1 rs2 : Reg)
  /-- `c.addi4spn`: R490. -/
  | c_addi4spn (rd : CReg) (imm : BitVec 8)
  /-- `c.fld`: R491. -/
  | c_fld (rd rs1 : CReg) (uimm : BitVec 5)
  /-- `c.lw`: R492. -/
  | c_lw (rd rs1 : CReg) (uimm : BitVec 5)
  /-- `c.flw`, XLEN = 32: R493. -/
  | c_flw (rd rs1 : CReg) (uimm : BitVec 5)
  /-- `c.ld`, XLEN = 64: R494. -/
  | c_ld (rd rs1 : CReg) (uimm : BitVec 5)
  /-- `c.fsd`: R495. -/
  | c_fsd (rs1 rs2 : CReg) (uimm : BitVec 5)
  /-- `c.sw`: R496. -/
  | c_sw (rs1 rs2 : CReg) (uimm : BitVec 5)
  /-- `c.fsw`, XLEN = 32: R497. -/
  | c_fsw (rs1 rs2 : CReg) (uimm : BitVec 5)
  /-- `c.sd`, XLEN = 64: R498. -/
  | c_sd (rs1 rs2 : CReg) (uimm : BitVec 5)
  /-- `c.nop`: R499. -/
  | c_nop (imm : BitVec 6)
  /-- `c.addi`: R500. -/
  | c_addi (rd : Reg) (imm : BitVec 6)
  /-- `c.jal`, XLEN = 32: R501. -/
  | c_jal (imm : BitVec 11)
  /-- `c.addiw`, XLEN = 64: R502. -/
  | c_addiw (rd : Reg) (imm : BitVec 6)
  /-- `c.li`: R503. -/
  | c_li (rd : Reg) (imm : BitVec 6)
  /-- `c.addi16sp`: R504. -/
  | c_addi16sp (imm : BitVec 6)
  /-- `c.lui`: R505. -/
  | c_lui (rd : Reg) (imm : BitVec 6)
  /-- `c.srli`: R506. -/
  | c_srli (rd : CReg) (shamt : BitVec 6)
  /-- `c.srai`: R507. -/
  | c_srai (rd : CReg) (shamt : BitVec 6)
  /-- `c.andi`: R508. -/
  | c_andi (rd : CReg) (imm : BitVec 6)
  /-- `c.sub`: R509. -/
  | c_sub (rd rs2 : CReg)
  /-- `c.xor`: R510. -/
  | c_xor (rd rs2 : CReg)
  /-- `c.or`: R511. -/
  | c_or (rd rs2 : CReg)
  /-- `c.and`: R512. -/
  | c_and (rd rs2 : CReg)
  /-- `c.subw`, XLEN = 64: R513. -/
  | c_subw (rd rs2 : CReg)
  /-- `c.addw`, XLEN = 64: R514. -/
  | c_addw (rd rs2 : CReg)
  /-- `c.j`: R515. -/
  | c_j (imm : BitVec 11)
  /-- `c.beqz`: R516. -/
  | c_beqz (rs1 : CReg) (imm : BitVec 8)
  /-- `c.bnez`: R517. -/
  | c_bnez (rs1 : CReg) (imm : BitVec 8)
  /-- `c.slli`: R518. -/
  | c_slli (rd : Reg) (shamt : BitVec 6)
  /-- `c.fldsp`: R519. -/
  | c_fldsp (rd : Reg) (uimm : BitVec 6)
  /-- `c.lwsp`: R520. -/
  | c_lwsp (rd : Reg) (uimm : BitVec 6)
  /-- `c.flwsp`, XLEN = 32: R521. -/
  | c_flwsp (rd : Reg) (uimm : BitVec 6)
  /-- `c.ldsp`, XLEN = 64: R522. -/
  | c_ldsp (rd : Reg) (uimm : BitVec 6)
  /-- `c.jr`: R523. -/
  | c_jr (rs1 : Reg)
  /-- `c.mv`: R524. -/
  | c_mv (rd rs2 : Reg)
  /-- `c.ebreak`: R525. -/
  | c_ebreak
  /-- `c.jalr`: R526. -/
  | c_jalr (rs1 : Reg)
  /-- `c.add`: R527. -/
  | c_add (rd rs2 : Reg)
  /-- `c.fsdsp`: R528. -/
  | c_fsdsp (rs2 : Reg) (uimm : BitVec 6)
  /-- `c.swsp`: R529. -/
  | c_swsp (rs2 : Reg) (uimm : BitVec 6)
  /-- `c.fswsp`, XLEN = 32: R530. -/
  | c_fswsp (rs2 : Reg) (uimm : BitVec 6)
  /-- `c.sdsp`, XLEN = 64: R531. -/
  | c_sdsp (rs2 : Reg) (uimm : BitVec 6)
  /-- `c.lbu`: R672. -/
  | c_lbu (rd rs1 : CReg) (uimm : BitVec 2)
  /-- `c.lhu`: R673. -/
  | c_lhu (rd rs1 : CReg) (uimm : BitVec 1)
  /-- `c.lh`: R674. -/
  | c_lh (rd rs1 : CReg) (uimm : BitVec 1)
  /-- `c.sb`: R675. -/
  | c_sb (rs1 rs2 : CReg) (uimm : BitVec 2)
  /-- `c.sh`: R676. -/
  | c_sh (rs1 rs2 : CReg) (uimm : BitVec 1)
  /-- `c.zext.b`: R677. -/
  | c_zext_b (rd : CReg)
  /-- `c.sext.b`: R678. -/
  | c_sext_b (rd : CReg)
  /-- `c.zext.h`: R679. -/
  | c_zext_h (rd : CReg)
  /-- `c.sext.h`: R680. -/
  | c_sext_h (rd : CReg)
  /-- `c.zext.w`, XLEN = 64: R681. -/
  | c_zext_w (rd : CReg)
  /-- `c.not`: R682. -/
  | c_not (rd : CReg)
  /-- `c.mul`: R683. -/
  | c_mul (rd rs2 : CReg)
  /-- `cm.push`: R692. -/
  | cm_push (rlist : BitVec 4) (spimm : BitVec 2)
  /-- `cm.pop`: R693. -/
  | cm_pop (rlist : BitVec 4) (spimm : BitVec 2)
  /-- `cm.popretz`: R694. -/
  | cm_popretz (rlist : BitVec 4) (spimm : BitVec 2)
  /-- `cm.popret`: R695. -/
  | cm_popret (rlist : BitVec 4) (spimm : BitVec 2)
  /-- `cm.mvsa01`: R696. -/
  | cm_mvsa01 (r1s r2s : BitVec 3)
  /-- `cm.mva01s`: R698. -/
  | cm_mva01s (r1s r2s : BitVec 3)
  /-- `cm.jt`: R700. -/
  | cm_jt (index : BitVec 5)
  /-- `cm.jalt`: R701. -/
  | cm_jalt (index : BitVec 8)
deriving DecidableEq, Repr

end Sys2Proof
end

