-- ==== Sys2Proof/WellFormed.lean ====
section
/-! DEFINITION. Which instructions a configuration has: the extension, the XLEN, the registers and the operand values of
each row (30_encoding.md R190 to R195, 10_state.md R43, 48_zc.md R690, R696, R698). The decoder refuses every other. -/

namespace Sys2Proof

/-- What a row needs of the configuration (the `ext` column of the opcode table). -/
inductive Ext where
  | i | s | zifencei | zicsr | m | a | f | d | zfh | zfhD | c | cD | cF | zba | zbb | zbc | zbs
  | zcb | zcbZbb | zcbZba | zcbM | zcmp | zcmt | zicond
deriving DecidableEq, Repr

/-- The extension is configured, with the prerequisites of 48_zc.md R670 and the exclusion of
00_scope.md R17. -/
def Ext.on (c : Config) : Ext → Bool
  | .i => true
  | .s => c.extS
  | .zifencei => c.extZifencei
  | .zicsr => c.extZicsr
  | .m => c.extM
  | .a => c.extA
  | .f => c.extF
  | .d => c.extD
  | .zfh => c.extZfh
  | .zfhD => c.extZfh && c.extD
  | .c => c.extC
  | .cD => c.extC && c.extD && !c.extZcmp && !c.extZcmt
  | .cF => c.extC && c.extF
  | .zba => c.extZba
  | .zbb => c.extZbb
  | .zbc => c.extZbc
  | .zbs => c.extZbs
  | .zcb => c.extC && c.extZcb
  | .zcbZbb => c.extC && c.extZcb && c.extZbb
  | .zcbZba => c.extC && c.extZcb && c.extZba
  | .zcbM => c.extC && c.extZcb && c.extM
  | .zcmp => c.extC && c.extZcmp
  | .zcmt => c.extC && c.extZcmt
  | .zicond => c.extZicond

/-- What the table and the rules say of one instruction under a configuration. -/
structure Row where
  /-- The extension the instruction belongs to. -/
  ext : Ext
  /-- The only XLEN that has it, if there is one. -/
  xlen : Option Xlen
  /-- The integer registers its 5-bit fields name. -/
  regs : List Reg
  /-- Its operands are not a reserved encoding. -/
  ok : Bool
deriving DecidableEq, Repr

/-- Why bits are no instruction. Every reason ends in `IllegalInstruction` (60_exceptions.md R723). -/
inductive Reject where
  /-- No row of the table matches (R723 (a)). -/
  | unallocated
  /-- The 48-bit and longer formats (30_encoding.md R150). -/
  | longFormat
  /-- The bytes given end before the instruction does. -/
  | truncated
  /-- The extension is not configured (R723 (b)). -/
  | notConfigured
  /-- The row exists for the other XLEN only (R723 (c)). -/
  | otherXlen
  /-- A register field of 16 or more with RV32E (R723 (i)). -/
  | rv32eRegister
  /-- A reserved operand value (R723 (d)). -/
  | reservedOperand
deriving DecidableEq, Repr

/-- A shift amount the XLEN has: bit 5 is 0 on XLEN = 32 (30_encoding.md R162). -/
def shamtOk (c : Config) (shamt : BitVec 6) : Bool :=
  match c.xlen with
  | .rv32 => !shamt.getLsbD 5
  | .rv64 => true

/-- A register list of Zcmp that is not reserved (48_zc.md R690). -/
def rlistOk (c : Config) (rlist : BitVec 4) : Bool :=
  (4 ≤ rlist.toNat : Bool) && (!c.rv32e || (rlist.toNat ≤ 6 : Bool))

/-- A saved-register number of Zcmp that exists (48_zc.md R697). -/
def sregOk (c : Config) (r : BitVec 3) : Bool := !c.rv32e || (r.toNat ≤ 1 : Bool)

/-- A 16-bit instruction: the 62 rows of width 16, with the operands their constructors of `Instr` have. The 16-bit
decoder answers one of these, and `CInstr.toInstr` gives the instruction. It is a type of its own only so that the model
can be compiled and run: Lean's runtime has no tag for a constructor past the 245th, so code that builds such an `Instr`
is not compiled (log 23). -/
inductive CInstr where
  | c_addi4spn (rd : CReg) (imm : BitVec 8)
  | c_fld (rd rs1 : CReg) (uimm : BitVec 5)
  | c_lw (rd rs1 : CReg) (uimm : BitVec 5)
  | c_flw (rd rs1 : CReg) (uimm : BitVec 5)
  | c_ld (rd rs1 : CReg) (uimm : BitVec 5)
  | c_fsd (rs1 rs2 : CReg) (uimm : BitVec 5)
  | c_sw (rs1 rs2 : CReg) (uimm : BitVec 5)
  | c_fsw (rs1 rs2 : CReg) (uimm : BitVec 5)
  | c_sd (rs1 rs2 : CReg) (uimm : BitVec 5)
  | c_nop (imm : BitVec 6)
  | c_addi (rd : Reg) (imm : BitVec 6)
  | c_jal (imm : BitVec 11)
  | c_addiw (rd : Reg) (imm : BitVec 6)
  | c_li (rd : Reg) (imm : BitVec 6)
  | c_addi16sp (imm : BitVec 6)
  | c_lui (rd : Reg) (imm : BitVec 6)
  | c_srli (rd : CReg) (shamt : BitVec 6)
  | c_srai (rd : CReg) (shamt : BitVec 6)
  | c_andi (rd : CReg) (imm : BitVec 6)
  | c_sub (rd rs2 : CReg)
  | c_xor (rd rs2 : CReg)
  | c_or (rd rs2 : CReg)
  | c_and (rd rs2 : CReg)
  | c_subw (rd rs2 : CReg)
  | c_addw (rd rs2 : CReg)
  | c_j (imm : BitVec 11)
  | c_beqz (rs1 : CReg) (imm : BitVec 8)
  | c_bnez (rs1 : CReg) (imm : BitVec 8)
  | c_slli (rd : Reg) (shamt : BitVec 6)
  | c_fldsp (rd : Reg) (uimm : BitVec 6)
  | c_lwsp (rd : Reg) (uimm : BitVec 6)
  | c_flwsp (rd : Reg) (uimm : BitVec 6)
  | c_ldsp (rd : Reg) (uimm : BitVec 6)
  | c_jr (rs1 : Reg)
  | c_mv (rd rs2 : Reg)
  | c_ebreak
  | c_jalr (rs1 : Reg)
  | c_add (rd rs2 : Reg)
  | c_fsdsp (rs2 : Reg) (uimm : BitVec 6)
  | c_swsp (rs2 : Reg) (uimm : BitVec 6)
  | c_fswsp (rs2 : Reg) (uimm : BitVec 6)
  | c_sdsp (rs2 : Reg) (uimm : BitVec 6)
  | c_lbu (rd rs1 : CReg) (uimm : BitVec 2)
  | c_lhu (rd rs1 : CReg) (uimm : BitVec 1)
  | c_lh (rd rs1 : CReg) (uimm : BitVec 1)
  | c_sb (rs1 rs2 : CReg) (uimm : BitVec 2)
  | c_sh (rs1 rs2 : CReg) (uimm : BitVec 1)
  | c_zext_b (rd : CReg)
  | c_sext_b (rd : CReg)
  | c_zext_h (rd : CReg)
  | c_sext_h (rd : CReg)
  | c_zext_w (rd : CReg)
  | c_not (rd : CReg)
  | c_mul (rd rs2 : CReg)
  | cm_push (rlist : BitVec 4) (spimm : BitVec 2)
  | cm_pop (rlist : BitVec 4) (spimm : BitVec 2)
  | cm_popretz (rlist : BitVec 4) (spimm : BitVec 2)
  | cm_popret (rlist : BitVec 4) (spimm : BitVec 2)
  | cm_mvsa01 (r1s r2s : BitVec 3)
  | cm_mva01s (r1s r2s : BitVec 3)
  | cm_jt (index : BitVec 5)
  | cm_jalt (index : BitVec 8)
deriving DecidableEq, Repr

/-- The instruction. -/
noncomputable def CInstr.toInstr : CInstr → Instr
  | .c_addi4spn rd imm => .c_addi4spn rd imm
  | .c_fld rd rs1 uimm => .c_fld rd rs1 uimm
  | .c_lw rd rs1 uimm => .c_lw rd rs1 uimm
  | .c_flw rd rs1 uimm => .c_flw rd rs1 uimm
  | .c_ld rd rs1 uimm => .c_ld rd rs1 uimm
  | .c_fsd rs1 rs2 uimm => .c_fsd rs1 rs2 uimm
  | .c_sw rs1 rs2 uimm => .c_sw rs1 rs2 uimm
  | .c_fsw rs1 rs2 uimm => .c_fsw rs1 rs2 uimm
  | .c_sd rs1 rs2 uimm => .c_sd rs1 rs2 uimm
  | .c_nop imm => .c_nop imm
  | .c_addi rd imm => .c_addi rd imm
  | .c_jal imm => .c_jal imm
  | .c_addiw rd imm => .c_addiw rd imm
  | .c_li rd imm => .c_li rd imm
  | .c_addi16sp imm => .c_addi16sp imm
  | .c_lui rd imm => .c_lui rd imm
  | .c_srli rd shamt => .c_srli rd shamt
  | .c_srai rd shamt => .c_srai rd shamt
  | .c_andi rd imm => .c_andi rd imm
  | .c_sub rd rs2 => .c_sub rd rs2
  | .c_xor rd rs2 => .c_xor rd rs2
  | .c_or rd rs2 => .c_or rd rs2
  | .c_and rd rs2 => .c_and rd rs2
  | .c_subw rd rs2 => .c_subw rd rs2
  | .c_addw rd rs2 => .c_addw rd rs2
  | .c_j imm => .c_j imm
  | .c_beqz rs1 imm => .c_beqz rs1 imm
  | .c_bnez rs1 imm => .c_bnez rs1 imm
  | .c_slli rd shamt => .c_slli rd shamt
  | .c_fldsp rd uimm => .c_fldsp rd uimm
  | .c_lwsp rd uimm => .c_lwsp rd uimm
  | .c_flwsp rd uimm => .c_flwsp rd uimm
  | .c_ldsp rd uimm => .c_ldsp rd uimm
  | .c_jr rs1 => .c_jr rs1
  | .c_mv rd rs2 => .c_mv rd rs2
  | .c_ebreak => .c_ebreak
  | .c_jalr rs1 => .c_jalr rs1
  | .c_add rd rs2 => .c_add rd rs2
  | .c_fsdsp rs2 uimm => .c_fsdsp rs2 uimm
  | .c_swsp rs2 uimm => .c_swsp rs2 uimm
  | .c_fswsp rs2 uimm => .c_fswsp rs2 uimm
  | .c_sdsp rs2 uimm => .c_sdsp rs2 uimm
  | .c_lbu rd rs1 uimm => .c_lbu rd rs1 uimm
  | .c_lhu rd rs1 uimm => .c_lhu rd rs1 uimm
  | .c_lh rd rs1 uimm => .c_lh rd rs1 uimm
  | .c_sb rs1 rs2 uimm => .c_sb rs1 rs2 uimm
  | .c_sh rs1 rs2 uimm => .c_sh rs1 rs2 uimm
  | .c_zext_b rd => .c_zext_b rd
  | .c_sext_b rd => .c_sext_b rd
  | .c_zext_h rd => .c_zext_h rd
  | .c_sext_h rd => .c_sext_h rd
  | .c_zext_w rd => .c_zext_w rd
  | .c_not rd => .c_not rd
  | .c_mul rd rs2 => .c_mul rd rs2
  | .cm_push rlist spimm => .cm_push rlist spimm
  | .cm_pop rlist spimm => .cm_pop rlist spimm
  | .cm_popretz rlist spimm => .cm_popretz rlist spimm
  | .cm_popret rlist spimm => .cm_popret rlist spimm
  | .cm_mvsa01 r1s r2s => .cm_mvsa01 r1s r2s
  | .cm_mva01s r1s r2s => .cm_mva01s r1s r2s
  | .cm_jt index => .cm_jt index
  | .cm_jalt index => .cm_jalt index

/-- The row of a 16-bit instruction (30_encoding.md R162, R193; 48_zc.md R690, R696, R698, R699). -/
def CInstr.row (c : Config) : CInstr → Row
  | .c_addi4spn _ imm => ⟨.c, none, [], imm != 0⟩
  | .c_fld _ _ _ => ⟨.cD, none, [], true⟩
  | .c_lw _ _ _ => ⟨.c, none, [], true⟩
  | .c_flw _ _ _ => ⟨.cF, (some .rv32), [], true⟩
  | .c_ld _ _ _ => ⟨.c, (some .rv64), [], true⟩
  | .c_fsd _ _ _ => ⟨.cD, none, [], true⟩
  | .c_sw _ _ _ => ⟨.c, none, [], true⟩
  | .c_fsw _ _ _ => ⟨.cF, (some .rv32), [], true⟩
  | .c_sd _ _ _ => ⟨.c, (some .rv64), [], true⟩
  | .c_nop _ => ⟨.c, none, [], true⟩
  | .c_addi rd _ => ⟨.c, none, [rd], rd != 0⟩
  | .c_jal _ => ⟨.c, (some .rv32), [], true⟩
  | .c_addiw rd _ => ⟨.c, (some .rv64), [rd], rd != 0⟩
  | .c_li rd _ => ⟨.c, none, [rd], true⟩
  | .c_addi16sp imm => ⟨.c, none, [], imm != 0⟩
  | .c_lui rd imm => ⟨.c, none, [rd], rd != 2 && imm != 0⟩
  | .c_srli _ shamt => ⟨.c, none, [], shamtOk c shamt⟩
  | .c_srai _ shamt => ⟨.c, none, [], shamtOk c shamt⟩
  | .c_andi _ _ => ⟨.c, none, [], true⟩
  | .c_sub _ _ => ⟨.c, none, [], true⟩
  | .c_xor _ _ => ⟨.c, none, [], true⟩
  | .c_or _ _ => ⟨.c, none, [], true⟩
  | .c_and _ _ => ⟨.c, none, [], true⟩
  | .c_subw _ _ => ⟨.c, (some .rv64), [], true⟩
  | .c_addw _ _ => ⟨.c, (some .rv64), [], true⟩
  | .c_j _ => ⟨.c, none, [], true⟩
  | .c_beqz _ _ => ⟨.c, none, [], true⟩
  | .c_bnez _ _ => ⟨.c, none, [], true⟩
  | .c_slli rd shamt => ⟨.c, none, [rd], shamtOk c shamt⟩
  | .c_fldsp _ _ => ⟨.cD, none, [], true⟩
  | .c_lwsp rd _ => ⟨.c, none, [rd], rd != 0⟩
  | .c_flwsp _ _ => ⟨.cF, (some .rv32), [], true⟩
  | .c_ldsp rd _ => ⟨.c, (some .rv64), [rd], rd != 0⟩
  | .c_jr rs1 => ⟨.c, none, [rs1], rs1 != 0⟩
  | .c_mv rd rs2 => ⟨.c, none, [rd, rs2], rs2 != 0⟩
  | .c_ebreak => ⟨.c, none, [], true⟩
  | .c_jalr rs1 => ⟨.c, none, [rs1], rs1 != 0⟩
  | .c_add rd rs2 => ⟨.c, none, [rd, rs2], rs2 != 0⟩
  | .c_fsdsp _ _ => ⟨.cD, none, [], true⟩
  | .c_swsp rs2 _ => ⟨.c, none, [rs2], true⟩
  | .c_fswsp _ _ => ⟨.cF, (some .rv32), [], true⟩
  | .c_sdsp rs2 _ => ⟨.c, (some .rv64), [rs2], true⟩
  | .c_lbu _ _ _ => ⟨.zcb, none, [], true⟩
  | .c_lhu _ _ _ => ⟨.zcb, none, [], true⟩
  | .c_lh _ _ _ => ⟨.zcb, none, [], true⟩
  | .c_sb _ _ _ => ⟨.zcb, none, [], true⟩
  | .c_sh _ _ _ => ⟨.zcb, none, [], true⟩
  | .c_zext_b _ => ⟨.zcb, none, [], true⟩
  | .c_sext_b _ => ⟨.zcbZbb, none, [], true⟩
  | .c_zext_h _ => ⟨.zcbZbb, none, [], true⟩
  | .c_sext_h _ => ⟨.zcbZbb, none, [], true⟩
  | .c_zext_w _ => ⟨.zcbZba, (some .rv64), [], true⟩
  | .c_not _ => ⟨.zcb, none, [], true⟩
  | .c_mul _ _ => ⟨.zcbM, none, [], true⟩
  | .cm_push rlist _ => ⟨.zcmp, none, [], rlistOk c rlist⟩
  | .cm_pop rlist _ => ⟨.zcmp, none, [], rlistOk c rlist⟩
  | .cm_popretz rlist _ => ⟨.zcmp, none, [], rlistOk c rlist⟩
  | .cm_popret rlist _ => ⟨.zcmp, none, [], rlistOk c rlist⟩
  | .cm_mvsa01 r1s r2s => ⟨.zcmp, none, [], r1s != r2s && sregOk c r1s && sregOk c r2s⟩
  | .cm_mva01s r1s r2s => ⟨.zcmp, none, [], sregOk c r1s && sregOk c r2s⟩
  | .cm_jt _ => ⟨.zcmt, none, [], true⟩
  | .cm_jalt index => ⟨.zcmt, none, [], (32 ≤ index.toNat : Bool)⟩

/-- The row of an instruction (spec/opcode_table.json; 30_encoding.md R162, R195). -/
def Instr.row (c : Config) : Instr → Row
  | .lui rd _ => ⟨.i, none, [rd], true⟩
  | .auipc rd _ => ⟨.i, none, [rd], true⟩
  | .addi rd rs1 _ => ⟨.i, none, [rd, rs1], true⟩
  | .slti rd rs1 _ => ⟨.i, none, [rd, rs1], true⟩
  | .sltiu rd rs1 _ => ⟨.i, none, [rd, rs1], true⟩
  | .xori rd rs1 _ => ⟨.i, none, [rd, rs1], true⟩
  | .ori rd rs1 _ => ⟨.i, none, [rd, rs1], true⟩
  | .andi rd rs1 _ => ⟨.i, none, [rd, rs1], true⟩
  | .slli rd rs1 shamt => ⟨.i, none, [rd, rs1], shamtOk c shamt⟩
  | .srli rd rs1 shamt => ⟨.i, none, [rd, rs1], shamtOk c shamt⟩
  | .srai rd rs1 shamt => ⟨.i, none, [rd, rs1], shamtOk c shamt⟩
  | .add rd rs1 rs2 => ⟨.i, none, [rd, rs1, rs2], true⟩
  | .sub rd rs1 rs2 => ⟨.i, none, [rd, rs1, rs2], true⟩
  | .sll rd rs1 rs2 => ⟨.i, none, [rd, rs1, rs2], true⟩
  | .slt rd rs1 rs2 => ⟨.i, none, [rd, rs1, rs2], true⟩
  | .sltu rd rs1 rs2 => ⟨.i, none, [rd, rs1, rs2], true⟩
  | .xor rd rs1 rs2 => ⟨.i, none, [rd, rs1, rs2], true⟩
  | .srl rd rs1 rs2 => ⟨.i, none, [rd, rs1, rs2], true⟩
  | .sra rd rs1 rs2 => ⟨.i, none, [rd, rs1, rs2], true⟩
  | .or rd rs1 rs2 => ⟨.i, none, [rd, rs1, rs2], true⟩
  | .and rd rs1 rs2 => ⟨.i, none, [rd, rs1, rs2], true⟩
  | .fence _ _ _ _ _ => ⟨.i, none, [], true⟩
  | .fence_i _ _ _ => ⟨.zifencei, none, [], true⟩
  | .csrrw rd rs1 _ => ⟨.zicsr, none, [rd, rs1], true⟩
  | .csrrs rd rs1 _ => ⟨.zicsr, none, [rd, rs1], true⟩
  | .csrrc rd rs1 _ => ⟨.zicsr, none, [rd, rs1], true⟩
  | .csrrwi rd _ _ => ⟨.zicsr, none, [rd], true⟩
  | .csrrsi rd _ _ => ⟨.zicsr, none, [rd], true⟩
  | .csrrci rd _ _ => ⟨.zicsr, none, [rd], true⟩
  | .ecall => ⟨.i, none, [], true⟩
  | .ebreak => ⟨.i, none, [], true⟩
  | .sret => ⟨.s, none, [], true⟩
  | .mret => ⟨.i, none, [], true⟩
  | .wfi => ⟨.i, none, [], true⟩
  | .sfence_vma rs1 rs2 => ⟨.s, none, [rs1, rs2], true⟩
  | .lb rd rs1 _ => ⟨.i, none, [rd, rs1], true⟩
  | .lh rd rs1 _ => ⟨.i, none, [rd, rs1], true⟩
  | .lw rd rs1 _ => ⟨.i, none, [rd, rs1], true⟩
  | .lbu rd rs1 _ => ⟨.i, none, [rd, rs1], true⟩
  | .lhu rd rs1 _ => ⟨.i, none, [rd, rs1], true⟩
  | .sb rs1 rs2 _ => ⟨.i, none, [rs1, rs2], true⟩
  | .sh rs1 rs2 _ => ⟨.i, none, [rs1, rs2], true⟩
  | .sw rs1 rs2 _ => ⟨.i, none, [rs1, rs2], true⟩
  | .jal rd _ => ⟨.i, none, [rd], true⟩
  | .jalr rd rs1 _ => ⟨.i, none, [rd, rs1], true⟩
  | .beq rs1 rs2 _ => ⟨.i, none, [rs1, rs2], true⟩
  | .bne rs1 rs2 _ => ⟨.i, none, [rs1, rs2], true⟩
  | .blt rs1 rs2 _ => ⟨.i, none, [rs1, rs2], true⟩
  | .bge rs1 rs2 _ => ⟨.i, none, [rs1, rs2], true⟩
  | .bltu rs1 rs2 _ => ⟨.i, none, [rs1, rs2], true⟩
  | .bgeu rs1 rs2 _ => ⟨.i, none, [rs1, rs2], true⟩
  | .addiw rd rs1 _ => ⟨.i, (some .rv64), [rd, rs1], true⟩
  | .slliw rd rs1 _ => ⟨.i, (some .rv64), [rd, rs1], true⟩
  | .srliw rd rs1 _ => ⟨.i, (some .rv64), [rd, rs1], true⟩
  | .sraiw rd rs1 _ => ⟨.i, (some .rv64), [rd, rs1], true⟩
  | .addw rd rs1 rs2 => ⟨.i, (some .rv64), [rd, rs1, rs2], true⟩
  | .subw rd rs1 rs2 => ⟨.i, (some .rv64), [rd, rs1, rs2], true⟩
  | .sllw rd rs1 rs2 => ⟨.i, (some .rv64), [rd, rs1, rs2], true⟩
  | .srlw rd rs1 rs2 => ⟨.i, (some .rv64), [rd, rs1, rs2], true⟩
  | .sraw rd rs1 rs2 => ⟨.i, (some .rv64), [rd, rs1, rs2], true⟩
  | .lwu rd rs1 _ => ⟨.i, (some .rv64), [rd, rs1], true⟩
  | .ld rd rs1 _ => ⟨.i, (some .rv64), [rd, rs1], true⟩
  | .sd rs1 rs2 _ => ⟨.i, (some .rv64), [rs1, rs2], true⟩
  | .mul rd rs1 rs2 => ⟨.m, none, [rd, rs1, rs2], true⟩
  | .mulh rd rs1 rs2 => ⟨.m, none, [rd, rs1, rs2], true⟩
  | .mulhsu rd rs1 rs2 => ⟨.m, none, [rd, rs1, rs2], true⟩
  | .mulhu rd rs1 rs2 => ⟨.m, none, [rd, rs1, rs2], true⟩
  | .div rd rs1 rs2 => ⟨.m, none, [rd, rs1, rs2], true⟩
  | .divu rd rs1 rs2 => ⟨.m, none, [rd, rs1, rs2], true⟩
  | .rem rd rs1 rs2 => ⟨.m, none, [rd, rs1, rs2], true⟩
  | .remu rd rs1 rs2 => ⟨.m, none, [rd, rs1, rs2], true⟩
  | .mulw rd rs1 rs2 => ⟨.m, (some .rv64), [rd, rs1, rs2], true⟩
  | .divw rd rs1 rs2 => ⟨.m, (some .rv64), [rd, rs1, rs2], true⟩
  | .divuw rd rs1 rs2 => ⟨.m, (some .rv64), [rd, rs1, rs2], true⟩
  | .remw rd rs1 rs2 => ⟨.m, (some .rv64), [rd, rs1, rs2], true⟩
  | .remuw rd rs1 rs2 => ⟨.m, (some .rv64), [rd, rs1, rs2], true⟩
  | .lr_w _ _ rd rs1 => ⟨.a, none, [rd, rs1], true⟩
  | .sc_w _ _ rd rs1 rs2 => ⟨.a, none, [rd, rs1, rs2], true⟩
  | .amoswap_w _ _ rd rs1 rs2 => ⟨.a, none, [rd, rs1, rs2], true⟩
  | .amoadd_w _ _ rd rs1 rs2 => ⟨.a, none, [rd, rs1, rs2], true⟩
  | .amoxor_w _ _ rd rs1 rs2 => ⟨.a, none, [rd, rs1, rs2], true⟩
  | .amoand_w _ _ rd rs1 rs2 => ⟨.a, none, [rd, rs1, rs2], true⟩
  | .amoor_w _ _ rd rs1 rs2 => ⟨.a, none, [rd, rs1, rs2], true⟩
  | .amomin_w _ _ rd rs1 rs2 => ⟨.a, none, [rd, rs1, rs2], true⟩
  | .amomax_w _ _ rd rs1 rs2 => ⟨.a, none, [rd, rs1, rs2], true⟩
  | .amominu_w _ _ rd rs1 rs2 => ⟨.a, none, [rd, rs1, rs2], true⟩
  | .amomaxu_w _ _ rd rs1 rs2 => ⟨.a, none, [rd, rs1, rs2], true⟩
  | .lr_d _ _ rd rs1 => ⟨.a, (some .rv64), [rd, rs1], true⟩
  | .sc_d _ _ rd rs1 rs2 => ⟨.a, (some .rv64), [rd, rs1, rs2], true⟩
  | .amoswap_d _ _ rd rs1 rs2 => ⟨.a, (some .rv64), [rd, rs1, rs2], true⟩
  | .amoadd_d _ _ rd rs1 rs2 => ⟨.a, (some .rv64), [rd, rs1, rs2], true⟩
  | .amoxor_d _ _ rd rs1 rs2 => ⟨.a, (some .rv64), [rd, rs1, rs2], true⟩
  | .amoand_d _ _ rd rs1 rs2 => ⟨.a, (some .rv64), [rd, rs1, rs2], true⟩
  | .amoor_d _ _ rd rs1 rs2 => ⟨.a, (some .rv64), [rd, rs1, rs2], true⟩
  | .amomin_d _ _ rd rs1 rs2 => ⟨.a, (some .rv64), [rd, rs1, rs2], true⟩
  | .amomax_d _ _ rd rs1 rs2 => ⟨.a, (some .rv64), [rd, rs1, rs2], true⟩
  | .amominu_d _ _ rd rs1 rs2 => ⟨.a, (some .rv64), [rd, rs1, rs2], true⟩
  | .amomaxu_d _ _ rd rs1 rs2 => ⟨.a, (some .rv64), [rd, rs1, rs2], true⟩
  | .fmadd_s _ _ _ _ _ => ⟨.f, none, [], true⟩
  | .fmsub_s _ _ _ _ _ => ⟨.f, none, [], true⟩
  | .fnmsub_s _ _ _ _ _ => ⟨.f, none, [], true⟩
  | .fnmadd_s _ _ _ _ _ => ⟨.f, none, [], true⟩
  | .fadd_s _ _ _ _ => ⟨.f, none, [], true⟩
  | .fsub_s _ _ _ _ => ⟨.f, none, [], true⟩
  | .fmul_s _ _ _ _ => ⟨.f, none, [], true⟩
  | .fdiv_s _ _ _ _ => ⟨.f, none, [], true⟩
  | .fsqrt_s _ _ _ => ⟨.f, none, [], true⟩
  | .fsgnj_s _ _ _ => ⟨.f, none, [], true⟩
  | .fsgnjn_s _ _ _ => ⟨.f, none, [], true⟩
  | .fsgnjx_s _ _ _ => ⟨.f, none, [], true⟩
  | .fmin_s _ _ _ => ⟨.f, none, [], true⟩
  | .fmax_s _ _ _ => ⟨.f, none, [], true⟩
  | .feq_s rd _ _ => ⟨.f, none, [rd], true⟩
  | .flt_s rd _ _ => ⟨.f, none, [rd], true⟩
  | .fle_s rd _ _ => ⟨.f, none, [rd], true⟩
  | .fclass_s rd _ => ⟨.f, none, [rd], true⟩
  | .fcvt_w_s rd _ _ => ⟨.f, none, [rd], true⟩
  | .fcvt_wu_s rd _ _ => ⟨.f, none, [rd], true⟩
  | .fcvt_l_s rd _ _ => ⟨.f, (some .rv64), [rd], true⟩
  | .fcvt_lu_s rd _ _ => ⟨.f, (some .rv64), [rd], true⟩
  | .fcvt_s_w _ rs1 _ => ⟨.f, none, [rs1], true⟩
  | .fcvt_s_wu _ rs1 _ => ⟨.f, none, [rs1], true⟩
  | .fcvt_s_l _ rs1 _ => ⟨.f, (some .rv64), [rs1], true⟩
  | .fcvt_s_lu _ rs1 _ => ⟨.f, (some .rv64), [rs1], true⟩
  | .fmv_x_w rd _ => ⟨.f, none, [rd], true⟩
  | .fmv_w_x _ rs1 => ⟨.f, none, [rs1], true⟩
  | .fmadd_d _ _ _ _ _ => ⟨.d, none, [], true⟩
  | .fmsub_d _ _ _ _ _ => ⟨.d, none, [], true⟩
  | .fnmsub_d _ _ _ _ _ => ⟨.d, none, [], true⟩
  | .fnmadd_d _ _ _ _ _ => ⟨.d, none, [], true⟩
  | .fadd_d _ _ _ _ => ⟨.d, none, [], true⟩
  | .fsub_d _ _ _ _ => ⟨.d, none, [], true⟩
  | .fmul_d _ _ _ _ => ⟨.d, none, [], true⟩
  | .fdiv_d _ _ _ _ => ⟨.d, none, [], true⟩
  | .fsqrt_d _ _ _ => ⟨.d, none, [], true⟩
  | .fsgnj_d _ _ _ => ⟨.d, none, [], true⟩
  | .fsgnjn_d _ _ _ => ⟨.d, none, [], true⟩
  | .fsgnjx_d _ _ _ => ⟨.d, none, [], true⟩
  | .fmin_d _ _ _ => ⟨.d, none, [], true⟩
  | .fmax_d _ _ _ => ⟨.d, none, [], true⟩
  | .feq_d rd _ _ => ⟨.d, none, [rd], true⟩
  | .flt_d rd _ _ => ⟨.d, none, [rd], true⟩
  | .fle_d rd _ _ => ⟨.d, none, [rd], true⟩
  | .fclass_d rd _ => ⟨.d, none, [rd], true⟩
  | .fcvt_w_d rd _ _ => ⟨.d, none, [rd], true⟩
  | .fcvt_wu_d rd _ _ => ⟨.d, none, [rd], true⟩
  | .fcvt_l_d rd _ _ => ⟨.d, (some .rv64), [rd], true⟩
  | .fcvt_lu_d rd _ _ => ⟨.d, (some .rv64), [rd], true⟩
  | .fcvt_d_w _ rs1 _ => ⟨.d, none, [rs1], true⟩
  | .fcvt_d_wu _ rs1 _ => ⟨.d, none, [rs1], true⟩
  | .fcvt_d_l _ rs1 _ => ⟨.d, (some .rv64), [rs1], true⟩
  | .fcvt_d_lu _ rs1 _ => ⟨.d, (some .rv64), [rs1], true⟩
  | .fcvt_s_d _ _ _ => ⟨.d, none, [], true⟩
  | .fcvt_d_s _ _ _ => ⟨.d, none, [], true⟩
  | .fmv_x_d rd _ => ⟨.d, (some .rv64), [rd], true⟩
  | .fmv_d_x _ rs1 => ⟨.d, (some .rv64), [rs1], true⟩
  | .flw _ rs1 _ => ⟨.f, none, [rs1], true⟩
  | .fsw rs1 _ _ => ⟨.f, none, [rs1], true⟩
  | .fld _ rs1 _ => ⟨.d, none, [rs1], true⟩
  | .fsd rs1 _ _ => ⟨.d, none, [rs1], true⟩
  | .fmadd_h _ _ _ _ _ => ⟨.zfh, none, [], true⟩
  | .fmsub_h _ _ _ _ _ => ⟨.zfh, none, [], true⟩
  | .fnmsub_h _ _ _ _ _ => ⟨.zfh, none, [], true⟩
  | .fnmadd_h _ _ _ _ _ => ⟨.zfh, none, [], true⟩
  | .fadd_h _ _ _ _ => ⟨.zfh, none, [], true⟩
  | .fsub_h _ _ _ _ => ⟨.zfh, none, [], true⟩
  | .fmul_h _ _ _ _ => ⟨.zfh, none, [], true⟩
  | .fdiv_h _ _ _ _ => ⟨.zfh, none, [], true⟩
  | .fsqrt_h _ _ _ => ⟨.zfh, none, [], true⟩
  | .fsgnj_h _ _ _ => ⟨.zfh, none, [], true⟩
  | .fsgnjn_h _ _ _ => ⟨.zfh, none, [], true⟩
  | .fsgnjx_h _ _ _ => ⟨.zfh, none, [], true⟩
  | .fmin_h _ _ _ => ⟨.zfh, none, [], true⟩
  | .fmax_h _ _ _ => ⟨.zfh, none, [], true⟩
  | .feq_h rd _ _ => ⟨.zfh, none, [rd], true⟩
  | .flt_h rd _ _ => ⟨.zfh, none, [rd], true⟩
  | .fle_h rd _ _ => ⟨.zfh, none, [rd], true⟩
  | .fclass_h rd _ => ⟨.zfh, none, [rd], true⟩
  | .fcvt_w_h rd _ _ => ⟨.zfh, none, [rd], true⟩
  | .fcvt_wu_h rd _ _ => ⟨.zfh, none, [rd], true⟩
  | .fcvt_l_h rd _ _ => ⟨.zfh, (some .rv64), [rd], true⟩
  | .fcvt_lu_h rd _ _ => ⟨.zfh, (some .rv64), [rd], true⟩
  | .fcvt_h_w _ rs1 _ => ⟨.zfh, none, [rs1], true⟩
  | .fcvt_h_wu _ rs1 _ => ⟨.zfh, none, [rs1], true⟩
  | .fcvt_h_l _ rs1 _ => ⟨.zfh, (some .rv64), [rs1], true⟩
  | .fcvt_h_lu _ rs1 _ => ⟨.zfh, (some .rv64), [rs1], true⟩
  | .fcvt_s_h _ _ _ => ⟨.zfh, none, [], true⟩
  | .fcvt_h_s _ _ _ => ⟨.zfh, none, [], true⟩
  | .fcvt_d_h _ _ _ => ⟨.zfhD, none, [], true⟩
  | .fcvt_h_d _ _ _ => ⟨.zfhD, none, [], true⟩
  | .fcvt_q_h _ _ _ => ⟨.zfh, none, [], true⟩
  | .fcvt_h_q _ _ _ => ⟨.zfh, none, [], true⟩
  | .fmv_x_h rd _ => ⟨.zfh, none, [rd], true⟩
  | .fmv_h_x _ rs1 => ⟨.zfh, none, [rs1], true⟩
  | .flh _ rs1 _ => ⟨.zfh, none, [rs1], true⟩
  | .fsh rs1 _ _ => ⟨.zfh, none, [rs1], true⟩
  | .add_uw rd rs1 rs2 => ⟨.zba, (some .rv64), [rd, rs1, rs2], true⟩
  | .sh1add rd rs1 rs2 => ⟨.zba, none, [rd, rs1, rs2], true⟩
  | .sh2add rd rs1 rs2 => ⟨.zba, none, [rd, rs1, rs2], true⟩
  | .sh3add rd rs1 rs2 => ⟨.zba, none, [rd, rs1, rs2], true⟩
  | .sh1add_uw rd rs1 rs2 => ⟨.zba, (some .rv64), [rd, rs1, rs2], true⟩
  | .sh2add_uw rd rs1 rs2 => ⟨.zba, (some .rv64), [rd, rs1, rs2], true⟩
  | .sh3add_uw rd rs1 rs2 => ⟨.zba, (some .rv64), [rd, rs1, rs2], true⟩
  | .slli_uw rd rs1 _ => ⟨.zba, (some .rv64), [rd, rs1], true⟩
  | .andn rd rs1 rs2 => ⟨.zbb, none, [rd, rs1, rs2], true⟩
  | .orn rd rs1 rs2 => ⟨.zbb, none, [rd, rs1, rs2], true⟩
  | .xnor rd rs1 rs2 => ⟨.zbb, none, [rd, rs1, rs2], true⟩
  | .clz rd rs1 => ⟨.zbb, none, [rd, rs1], true⟩
  | .clzw rd rs1 => ⟨.zbb, (some .rv64), [rd, rs1], true⟩
  | .ctz rd rs1 => ⟨.zbb, none, [rd, rs1], true⟩
  | .ctzw rd rs1 => ⟨.zbb, (some .rv64), [rd, rs1], true⟩
  | .cpop rd rs1 => ⟨.zbb, none, [rd, rs1], true⟩
  | .cpopw rd rs1 => ⟨.zbb, (some .rv64), [rd, rs1], true⟩
  | .sext_b rd rs1 => ⟨.zbb, none, [rd, rs1], true⟩
  | .sext_h rd rs1 => ⟨.zbb, none, [rd, rs1], true⟩
  | .max rd rs1 rs2 => ⟨.zbb, none, [rd, rs1, rs2], true⟩
  | .maxu rd rs1 rs2 => ⟨.zbb, none, [rd, rs1, rs2], true⟩
  | .min rd rs1 rs2 => ⟨.zbb, none, [rd, rs1, rs2], true⟩
  | .minu rd rs1 rs2 => ⟨.zbb, none, [rd, rs1, rs2], true⟩
  | .zext_h_rv32 rd rs1 => ⟨.zbb, (some .rv32), [rd, rs1], true⟩
  | .zext_h_rv64 rd rs1 => ⟨.zbb, (some .rv64), [rd, rs1], true⟩
  | .rol rd rs1 rs2 => ⟨.zbb, none, [rd, rs1, rs2], true⟩
  | .rolw rd rs1 rs2 => ⟨.zbb, (some .rv64), [rd, rs1, rs2], true⟩
  | .ror rd rs1 rs2 => ⟨.zbb, none, [rd, rs1, rs2], true⟩
  | .rori rd rs1 shamt => ⟨.zbb, none, [rd, rs1], shamtOk c shamt⟩
  | .roriw rd rs1 _ => ⟨.zbb, (some .rv64), [rd, rs1], true⟩
  | .rorw rd rs1 rs2 => ⟨.zbb, (some .rv64), [rd, rs1, rs2], true⟩
  | .orc_b rd rs1 => ⟨.zbb, none, [rd, rs1], true⟩
  | .rev8_rv32 rd rs1 => ⟨.zbb, (some .rv32), [rd, rs1], true⟩
  | .rev8_rv64 rd rs1 => ⟨.zbb, (some .rv64), [rd, rs1], true⟩
  | .clmul rd rs1 rs2 => ⟨.zbc, none, [rd, rs1, rs2], true⟩
  | .clmulh rd rs1 rs2 => ⟨.zbc, none, [rd, rs1, rs2], true⟩
  | .clmulr rd rs1 rs2 => ⟨.zbc, none, [rd, rs1, rs2], true⟩
  | .bclr rd rs1 rs2 => ⟨.zbs, none, [rd, rs1, rs2], true⟩
  | .bclri rd rs1 shamt => ⟨.zbs, none, [rd, rs1], shamtOk c shamt⟩
  | .bext rd rs1 rs2 => ⟨.zbs, none, [rd, rs1, rs2], true⟩
  | .bexti rd rs1 shamt => ⟨.zbs, none, [rd, rs1], shamtOk c shamt⟩
  | .binv rd rs1 rs2 => ⟨.zbs, none, [rd, rs1, rs2], true⟩
  | .binvi rd rs1 shamt => ⟨.zbs, none, [rd, rs1], shamtOk c shamt⟩
  | .bset rd rs1 rs2 => ⟨.zbs, none, [rd, rs1, rs2], true⟩
  | .bseti rd rs1 shamt => ⟨.zbs, none, [rd, rs1], shamtOk c shamt⟩
  | .czero_eqz rd rs1 rs2 => ⟨.zicond, none, [rd, rs1, rs2], true⟩
  | .czero_nez rd rs1 rs2 => ⟨.zicond, none, [rd, rs1, rs2], true⟩
  | .c_addi4spn rd imm => CInstr.row c (.c_addi4spn rd imm)
  | .c_fld rd rs1 uimm => CInstr.row c (.c_fld rd rs1 uimm)
  | .c_lw rd rs1 uimm => CInstr.row c (.c_lw rd rs1 uimm)
  | .c_flw rd rs1 uimm => CInstr.row c (.c_flw rd rs1 uimm)
  | .c_ld rd rs1 uimm => CInstr.row c (.c_ld rd rs1 uimm)
  | .c_fsd rs1 rs2 uimm => CInstr.row c (.c_fsd rs1 rs2 uimm)
  | .c_sw rs1 rs2 uimm => CInstr.row c (.c_sw rs1 rs2 uimm)
  | .c_fsw rs1 rs2 uimm => CInstr.row c (.c_fsw rs1 rs2 uimm)
  | .c_sd rs1 rs2 uimm => CInstr.row c (.c_sd rs1 rs2 uimm)
  | .c_nop imm => CInstr.row c (.c_nop imm)
  | .c_addi rd imm => CInstr.row c (.c_addi rd imm)
  | .c_jal imm => CInstr.row c (.c_jal imm)
  | .c_addiw rd imm => CInstr.row c (.c_addiw rd imm)
  | .c_li rd imm => CInstr.row c (.c_li rd imm)
  | .c_addi16sp imm => CInstr.row c (.c_addi16sp imm)
  | .c_lui rd imm => CInstr.row c (.c_lui rd imm)
  | .c_srli rd shamt => CInstr.row c (.c_srli rd shamt)
  | .c_srai rd shamt => CInstr.row c (.c_srai rd shamt)
  | .c_andi rd imm => CInstr.row c (.c_andi rd imm)
  | .c_sub rd rs2 => CInstr.row c (.c_sub rd rs2)
  | .c_xor rd rs2 => CInstr.row c (.c_xor rd rs2)
  | .c_or rd rs2 => CInstr.row c (.c_or rd rs2)
  | .c_and rd rs2 => CInstr.row c (.c_and rd rs2)
  | .c_subw rd rs2 => CInstr.row c (.c_subw rd rs2)
  | .c_addw rd rs2 => CInstr.row c (.c_addw rd rs2)
  | .c_j imm => CInstr.row c (.c_j imm)
  | .c_beqz rs1 imm => CInstr.row c (.c_beqz rs1 imm)
  | .c_bnez rs1 imm => CInstr.row c (.c_bnez rs1 imm)
  | .c_slli rd shamt => CInstr.row c (.c_slli rd shamt)
  | .c_fldsp rd uimm => CInstr.row c (.c_fldsp rd uimm)
  | .c_lwsp rd uimm => CInstr.row c (.c_lwsp rd uimm)
  | .c_flwsp rd uimm => CInstr.row c (.c_flwsp rd uimm)
  | .c_ldsp rd uimm => CInstr.row c (.c_ldsp rd uimm)
  | .c_jr rs1 => CInstr.row c (.c_jr rs1)
  | .c_mv rd rs2 => CInstr.row c (.c_mv rd rs2)
  | .c_ebreak => CInstr.row c .c_ebreak
  | .c_jalr rs1 => CInstr.row c (.c_jalr rs1)
  | .c_add rd rs2 => CInstr.row c (.c_add rd rs2)
  | .c_fsdsp rs2 uimm => CInstr.row c (.c_fsdsp rs2 uimm)
  | .c_swsp rs2 uimm => CInstr.row c (.c_swsp rs2 uimm)
  | .c_fswsp rs2 uimm => CInstr.row c (.c_fswsp rs2 uimm)
  | .c_sdsp rs2 uimm => CInstr.row c (.c_sdsp rs2 uimm)
  | .c_lbu rd rs1 uimm => CInstr.row c (.c_lbu rd rs1 uimm)
  | .c_lhu rd rs1 uimm => CInstr.row c (.c_lhu rd rs1 uimm)
  | .c_lh rd rs1 uimm => CInstr.row c (.c_lh rd rs1 uimm)
  | .c_sb rs1 rs2 uimm => CInstr.row c (.c_sb rs1 rs2 uimm)
  | .c_sh rs1 rs2 uimm => CInstr.row c (.c_sh rs1 rs2 uimm)
  | .c_zext_b rd => CInstr.row c (.c_zext_b rd)
  | .c_sext_b rd => CInstr.row c (.c_sext_b rd)
  | .c_zext_h rd => CInstr.row c (.c_zext_h rd)
  | .c_sext_h rd => CInstr.row c (.c_sext_h rd)
  | .c_zext_w rd => CInstr.row c (.c_zext_w rd)
  | .c_not rd => CInstr.row c (.c_not rd)
  | .c_mul rd rs2 => CInstr.row c (.c_mul rd rs2)
  | .cm_push rlist spimm => CInstr.row c (.cm_push rlist spimm)
  | .cm_pop rlist spimm => CInstr.row c (.cm_pop rlist spimm)
  | .cm_popretz rlist spimm => CInstr.row c (.cm_popretz rlist spimm)
  | .cm_popret rlist spimm => CInstr.row c (.cm_popret rlist spimm)
  | .cm_mvsa01 r1s r2s => CInstr.row c (.cm_mvsa01 r1s r2s)
  | .cm_mva01s r1s r2s => CInstr.row c (.cm_mva01s r1s r2s)
  | .cm_jt index => CInstr.row c (.cm_jt index)
  | .cm_jalt index => CInstr.row c (.cm_jalt index)

/-- RV32E has `x0` to `x15` only (10_state.md R43). -/
def regsOk (c : Config) (l : List Reg) : Bool := !c.rv32e || l.all (fun r => r.toNat < 16)

/-- Why the configuration does not have a row, if it does not. -/
def Row.rejected (c : Config) (r : Row) : Option Reject :=
  if !r.ext.on c then some .notConfigured
  else if !(r.xlen == none || r.xlen == some c.xlen) then some .otherXlen
  else if !regsOk c r.regs then some .rv32eRegister
  else if !r.ok then some .reservedOperand
  else none

/-- The configuration has the instruction, with these operands. -/
def Instr.wf (c : Config) (i : Instr) : Bool := ((i.row c).rejected c).isNone

end Sys2Proof
end

