-- ==== Sys2Proof/Decode.lean ====
section
/-! DEFINITION. The decoder and the encoder (30_encoding.md). `parse16` and `parse32` read the fields of the matching row
of spec/opcode_table.json; `decode` refuses, by name, what the configuration does not have. `encode` is written from the
same formats; every field of an instruction, ignored ones included, is in its encoding. -/

namespace Sys2Proof

/-- The bits of one instruction, 16 or 32 of them (30_encoding.md R150). -/
inductive Code where
  | half (w : BitVec 16)
  | word (w : BitVec 32)
deriving DecidableEq, Repr

/-- `ilen` (10_state.md R45). -/
def Code.len : Code → Nat
  | .half _ => 2
  | .word _ => 4

/-- The bits zero-extended: the trap value of an illegal instruction (60_exceptions.md R721 (c)). -/
def Code.bits : Code → Word
  | .half w => w.setWidth 64
  | .word w => w.setWidth 64

/-! ### The fields of a 32-bit instruction (30_encoding.md R152 to R167) -/

def opcodeF (w : BitVec 32) : BitVec 7 := w.extractLsb' 0 7
def rdF (w : BitVec 32) : BitVec 5 := w.extractLsb' 7 5
def funct3F (w : BitVec 32) : BitVec 3 := w.extractLsb' 12 3
def rs1F (w : BitVec 32) : BitVec 5 := w.extractLsb' 15 5
def rs2F (w : BitVec 32) : BitVec 5 := w.extractLsb' 20 5
def rs3F (w : BitVec 32) : BitVec 5 := w.extractLsb' 27 5
def funct7F (w : BitVec 32) : BitVec 7 := w.extractLsb' 25 7
def funct6F (w : BitVec 32) : BitVec 6 := w.extractLsb' 26 6
def funct5F (w : BitVec 32) : BitVec 5 := w.extractLsb' 27 5
def fmtF (w : BitVec 32) : BitVec 2 := w.extractLsb' 25 2
def shamtF (w : BitVec 32) : BitVec 6 := w.extractLsb' 20 6
def aqF (w : BitVec 32) : Bool := w.getLsbD 26
def rlF (w : BitVec 32) : Bool := w.getLsbD 25
def fmF (w : BitVec 32) : BitVec 4 := w.extractLsb' 28 4
def predF (w : BitVec 32) : BitVec 4 := w.extractLsb' 24 4
def succF (w : BitVec 32) : BitVec 4 := w.extractLsb' 20 4

/-- `imm[11:0]` of the I format, and the `csr` field (R153, R166). -/
def immIF (w : BitVec 32) : BitVec 12 := w.extractLsb' 20 12

/-- `imm[11:0]` of the S format (R154). -/
def immSF (w : BitVec 32) : BitVec 12 := w.extractLsb' 25 7 ++ w.extractLsb' 7 5

/-- `imm[12:1]` of the B format (R155). -/
def immBF (w : BitVec 32) : BitVec 12 :=
  w.extractLsb' 31 1 ++ w.extractLsb' 7 1 ++ w.extractLsb' 25 6 ++ w.extractLsb' 8 4

/-- `imm[31:12]` of the U format (R156). -/
def immUF (w : BitVec 32) : BitVec 20 := w.extractLsb' 12 20

/-- `imm[20:1]` of the J format (R157). -/
def immJF (w : BitVec 32) : BitVec 20 :=
  w.extractLsb' 31 1 ++ w.extractLsb' 12 8 ++ w.extractLsb' 20 1 ++ w.extractLsb' 21 10

/-! ### The 32-bit formats -/

/-- R format (R152). -/
def encR (f7 : BitVec 7) (rs2 rs1 : BitVec 5) (f3 : BitVec 3) (rd : BitVec 5) (op : BitVec 7) :
    BitVec 32 := f7 ++ rs2 ++ rs1 ++ f3 ++ rd ++ op

/-- I format (R153). -/
def encI (imm : BitVec 12) (rs1 : BitVec 5) (f3 : BitVec 3) (rd : BitVec 5) (op : BitVec 7) :
    BitVec 32 := imm ++ rs1 ++ f3 ++ rd ++ op

/-- S format (R154). -/
def encS (imm : BitVec 12) (rs2 rs1 : BitVec 5) (f3 : BitVec 3) (op : BitVec 7) : BitVec 32 :=
  imm.extractLsb' 5 7 ++ rs2 ++ rs1 ++ f3 ++ imm.extractLsb' 0 5 ++ op

/-- B format (R155); the argument is `imm[12:1]`. -/
def encB (imm : BitVec 12) (rs2 rs1 : BitVec 5) (f3 : BitVec 3) (op : BitVec 7) : BitVec 32 :=
  imm.extractLsb' 11 1 ++ imm.extractLsb' 4 6 ++ rs2 ++ rs1 ++ f3 ++ imm.extractLsb' 0 4 ++
    imm.extractLsb' 10 1 ++ op

/-- U format (R156). -/
def encU (imm : BitVec 20) (rd : BitVec 5) (op : BitVec 7) : BitVec 32 := imm ++ rd ++ op

/-- J format (R157); the argument is `imm[20:1]`. -/
def encJ (imm : BitVec 20) (rd : BitVec 5) (op : BitVec 7) : BitVec 32 :=
  imm.extractLsb' 19 1 ++ imm.extractLsb' 0 10 ++ imm.extractLsb' 10 1 ++ imm.extractLsb' 11 8 ++
    rd ++ op

/-- The atomic format (R158). -/
def encA (f5 : BitVec 5) (aq rl : Bool) (rs2 rs1 : BitVec 5) (f3 : BitVec 3) (rd : BitVec 5)
    (op : BitVec 7) : BitVec 32 :=
  encR (f5 ++ BitVec.ofBool aq ++ BitVec.ofBool rl) rs2 rs1 f3 rd op

/-! ### The fields of a 16-bit instruction (30_encoding.md R170 to R176) -/

def cOpF (w : BitVec 16) : BitVec 2 := w.extractLsb' 0 2
def cFunct3F (w : BitVec 16) : BitVec 3 := w.extractLsb' 13 3
def cBit12F (w : BitVec 16) : BitVec 1 := w.extractLsb' 12 1
/-- Bits 11:7: `rd/rs1`. -/
def cRdF (w : BitVec 16) : BitVec 5 := w.extractLsb' 7 5
/-- Bits 6:2: `rs2`. -/
def cRs2F (w : BitVec 16) : BitVec 5 := w.extractLsb' 2 5
/-- Bits 9:7: `rd'/rs1'`. -/
def cHiF (w : BitVec 16) : BitVec 3 := w.extractLsb' 7 3
/-- Bits 4:2: `rd'` or `rs2'`. -/
def cLoF (w : BitVec 16) : BitVec 3 := w.extractLsb' 2 3
def cBits11F (w : BitVec 16) : BitVec 2 := w.extractLsb' 10 2
def cBits6F (w : BitVec 16) : BitVec 2 := w.extractLsb' 5 2
def cBits12F (w : BitVec 16) : BitVec 3 := w.extractLsb' 10 3
/-- The 6-bit immediate of CI: bit 12 and bits 6:2. -/
def cImm6F (w : BitVec 16) : BitVec 6 := w.extractLsb' 12 1 ++ w.extractLsb' 2 5
/-- `nzuimm[9:2]` of `c.addi4spn` (R171). -/
def cImmCIWF (w : BitVec 16) : BitVec 8 :=
  w.extractLsb' 7 4 ++ w.extractLsb' 11 2 ++ w.extractLsb' 5 1 ++ w.extractLsb' 6 1
/-- `uimm[7:3]` of the doubleword CL and CS forms (R171). -/
def cUimm8F (w : BitVec 16) : BitVec 5 := w.extractLsb' 5 2 ++ w.extractLsb' 10 3
/-- `uimm[6:2]` of the word CL and CS forms (R171). -/
def cUimm4F (w : BitVec 16) : BitVec 5 := w.extractLsb' 5 1 ++ w.extractLsb' 10 3 ++ w.extractLsb' 6 1
/-- `nzimm[9:4]` of `c.addi16sp` (R172). -/
def cImm16F (w : BitVec 16) : BitVec 6 :=
  w.extractLsb' 12 1 ++ w.extractLsb' 3 2 ++ w.extractLsb' 5 1 ++ w.extractLsb' 2 1 ++ w.extractLsb' 6 1
/-- `uimm[8:3]` of `c.fldsp` and `c.ldsp` (R173). -/
def cUimmSP8F (w : BitVec 16) : BitVec 6 := w.extractLsb' 2 3 ++ w.extractLsb' 12 1 ++ w.extractLsb' 5 2
/-- `uimm[7:2]` of `c.lwsp` and `c.flwsp` (R173). -/
def cUimmSP4F (w : BitVec 16) : BitVec 6 := w.extractLsb' 2 2 ++ w.extractLsb' 12 1 ++ w.extractLsb' 4 3
/-- `uimm[8:3]` of `c.fsdsp` and `c.sdsp` (R173). -/
def cUimmSS8F (w : BitVec 16) : BitVec 6 := w.extractLsb' 7 3 ++ w.extractLsb' 10 3
/-- `uimm[7:2]` of `c.swsp` and `c.fswsp` (R173). -/
def cUimmSS4F (w : BitVec 16) : BitVec 6 := w.extractLsb' 7 2 ++ w.extractLsb' 9 4
/-- `imm[11:1]` of `c.j` and `c.jal` (R172). -/
def cImmJF (w : BitVec 16) : BitVec 11 :=
  w.extractLsb' 12 1 ++ w.extractLsb' 8 1 ++ w.extractLsb' 9 2 ++ w.extractLsb' 6 1 ++
    w.extractLsb' 7 1 ++ w.extractLsb' 2 1 ++ w.extractLsb' 11 1 ++ w.extractLsb' 3 3
/-- `imm[8:1]` of `c.beqz` and `c.bnez` (R172). -/
def cImmBF (w : BitVec 16) : BitVec 8 :=
  w.extractLsb' 12 1 ++ w.extractLsb' 5 2 ++ w.extractLsb' 2 1 ++ w.extractLsb' 10 2 ++
    w.extractLsb' 3 2
/-- `uimm[1:0]` of the byte forms of Zcb (R175). -/
def cUimmBF (w : BitVec 16) : BitVec 2 := w.extractLsb' 5 1 ++ w.extractLsb' 6 1
/-- `uimm[1]` of the halfword forms of Zcb (R175). -/
def cUimmHF (w : BitVec 16) : BitVec 1 := w.extractLsb' 5 1
/-- Bit 6: the function bit of the halfword forms of Zcb (R175). -/
def cBit6F (w : BitVec 16) : BitVec 1 := w.extractLsb' 6 1
def cRlistF (w : BitVec 16) : BitVec 4 := w.extractLsb' 4 4
def cSpimmF (w : BitVec 16) : BitVec 2 := w.extractLsb' 2 2
def cIndexF (w : BitVec 16) : BitVec 8 := w.extractLsb' 2 8

/-! ### The 16-bit formats -/

/-- Any 16-bit format by its five parts: bits 15:13, 12, 11:7, 6:2, 1:0 (R170). -/
def encC (f3 : BitVec 3) (b12 : BitVec 1) (m5 l5 : BitVec 5) (op : BitVec 2) : BitVec 16 :=
  f3 ++ b12 ++ m5 ++ l5 ++ op

/-- CI (R172). -/
def encCI (f3 : BitVec 3) (imm : BitVec 6) (rd : BitVec 5) (op : BitVec 2) : BitVec 16 :=
  encC f3 (imm.extractLsb' 5 1) rd (imm.extractLsb' 0 5) op

/-- CIW (R171); the argument is `nzuimm[9:2]`. -/
def encCIW (imm : BitVec 8) (rd : BitVec 3) : BitVec 16 :=
  0b000#3 ++ imm.extractLsb' 2 2 ++ imm.extractLsb' 4 4 ++ imm.extractLsb' 0 1 ++
    imm.extractLsb' 1 1 ++ rd ++ 0b00#2

/-- CL and CS, doubleword (R171); the argument is `uimm[7:3]`. -/
def encCL8 (f3 : BitVec 3) (uimm : BitVec 5) (rs1 r : BitVec 3) : BitVec 16 :=
  f3 ++ uimm.extractLsb' 0 3 ++ rs1 ++ uimm.extractLsb' 3 2 ++ r ++ 0b00#2

/-- CL and CS, word (R171); the argument is `uimm[6:2]`. -/
def encCL4 (f3 : BitVec 3) (uimm : BitVec 5) (rs1 r : BitVec 3) : BitVec 16 :=
  f3 ++ uimm.extractLsb' 1 3 ++ rs1 ++ uimm.extractLsb' 0 1 ++ uimm.extractLsb' 4 1 ++ r ++ 0b00#2

/-- `c.addi16sp` (R172); the argument is `nzimm[9:4]`. -/
def encC16 (imm : BitVec 6) : BitVec 16 :=
  0b011#3 ++ imm.extractLsb' 5 1 ++ 2#5 ++ imm.extractLsb' 0 1 ++ imm.extractLsb' 2 1 ++
    imm.extractLsb' 3 2 ++ imm.extractLsb' 1 1 ++ 0b01#2

/-- CI, doubleword load from the stack (R173); the argument is `uimm[8:3]`. -/
def encCSP8 (f3 : BitVec 3) (uimm : BitVec 6) (rd : BitVec 5) : BitVec 16 :=
  f3 ++ uimm.extractLsb' 2 1 ++ rd ++ uimm.extractLsb' 0 2 ++ uimm.extractLsb' 3 3 ++ 0b10#2

/-- CI, word load from the stack (R173); the argument is `uimm[7:2]`. -/
def encCSP4 (f3 : BitVec 3) (uimm : BitVec 6) (rd : BitVec 5) : BitVec 16 :=
  f3 ++ uimm.extractLsb' 3 1 ++ rd ++ uimm.extractLsb' 0 3 ++ uimm.extractLsb' 4 2 ++ 0b10#2

/-- CSS, doubleword (R173); the argument is `uimm[8:3]`. -/
def encCSS8 (f3 : BitVec 3) (uimm : BitVec 6) (rs2 : BitVec 5) : BitVec 16 :=
  f3 ++ uimm.extractLsb' 0 3 ++ uimm.extractLsb' 3 3 ++ rs2 ++ 0b10#2

/-- CSS, word (R173); the argument is `uimm[7:2]`. -/
def encCSS4 (f3 : BitVec 3) (uimm : BitVec 6) (rs2 : BitVec 5) : BitVec 16 :=
  f3 ++ uimm.extractLsb' 0 4 ++ uimm.extractLsb' 4 2 ++ rs2 ++ 0b10#2

/-- CJ (R172); the argument is `imm[11:1]`. -/
def encCJ (f3 : BitVec 3) (imm : BitVec 11) : BitVec 16 :=
  f3 ++ imm.extractLsb' 10 1 ++ imm.extractLsb' 3 1 ++ imm.extractLsb' 7 2 ++ imm.extractLsb' 9 1 ++
    imm.extractLsb' 5 1 ++ imm.extractLsb' 6 1 ++ imm.extractLsb' 0 3 ++ imm.extractLsb' 4 1 ++ 0b01#2

/-- CB branch (R172); the argument is `imm[8:1]`. -/
def encCB (f3 : BitVec 3) (imm : BitVec 8) (rs1 : BitVec 3) : BitVec 16 :=
  f3 ++ imm.extractLsb' 7 1 ++ imm.extractLsb' 2 2 ++ rs1 ++ imm.extractLsb' 5 2 ++
    imm.extractLsb' 0 2 ++ imm.extractLsb' 4 1 ++ 0b01#2

/-- CLB and CSB (R175): quadrant 0, funct3 100, `f` = bits 11:10. -/
def encCLB (f : BitVec 2) (uimm : BitVec 2) (rs1 r : BitVec 3) : BitVec 16 :=
  0b100#3 ++ 0#1 ++ f ++ rs1 ++ uimm.extractLsb' 0 1 ++ uimm.extractLsb' 1 1 ++ r ++ 0b00#2

/-- CLH and CSH (R175): `b6` is the function bit. -/
def encCLH (f : BitVec 2) (b6 uimm : BitVec 1) (rs1 r : BitVec 3) : BitVec 16 :=
  0b100#3 ++ 0#1 ++ f ++ rs1 ++ b6 ++ uimm ++ r ++ 0b00#2

/-- CMPP (R176): `f` = bits 12:8. -/
def encCMPP (f : BitVec 5) (rlist : BitVec 4) (spimm : BitVec 2) : BitVec 16 :=
  0b101#3 ++ f ++ rlist ++ spimm ++ 0b10#2

/-- CMJT (R176). -/
def encCMJT (index : BitVec 8) : BitVec 16 := 0b101#3 ++ 0b000#3 ++ index ++ 0b10#2

/-- The encoding of a 16-bit instruction (spec/opcode_table.json). -/
def CInstr.encode : CInstr → BitVec 16
  | .c_addi4spn rd imm => (encCIW imm rd)
  | .c_fld rd rs1 uimm => (encCL8 0b001#3 uimm rs1 rd)
  | .c_lw rd rs1 uimm => (encCL4 0b010#3 uimm rs1 rd)
  | .c_flw rd rs1 uimm => (encCL4 0b011#3 uimm rs1 rd)
  | .c_ld rd rs1 uimm => (encCL8 0b011#3 uimm rs1 rd)
  | .c_fsd rs1 rs2 uimm => (encCL8 0b101#3 uimm rs1 rs2)
  | .c_sw rs1 rs2 uimm => (encCL4 0b110#3 uimm rs1 rs2)
  | .c_fsw rs1 rs2 uimm => (encCL4 0b111#3 uimm rs1 rs2)
  | .c_sd rs1 rs2 uimm => (encCL8 0b111#3 uimm rs1 rs2)
  | .c_nop imm => (encCI 0b000#3 imm 0#5 0b01#2)
  | .c_addi rd imm => (encCI 0b000#3 imm rd 0b01#2)
  | .c_jal imm => (encCJ 0b001#3 imm)
  | .c_addiw rd imm => (encCI 0b001#3 imm rd 0b01#2)
  | .c_li rd imm => (encCI 0b010#3 imm rd 0b01#2)
  | .c_addi16sp imm => (encC16 imm)
  | .c_lui rd imm => (encCI 0b011#3 imm rd 0b01#2)
  | .c_srli rd shamt => (encCI 0b100#3 shamt (0b00#2 ++ rd) 0b01#2)
  | .c_srai rd shamt => (encCI 0b100#3 shamt (0b01#2 ++ rd) 0b01#2)
  | .c_andi rd imm => (encCI 0b100#3 imm (0b10#2 ++ rd) 0b01#2)
  | .c_sub rd rs2 => (encC 0b100#3 0b0#1 (0b11#2 ++ rd) (0b00#2 ++ rs2) 0b01#2)
  | .c_xor rd rs2 => (encC 0b100#3 0b0#1 (0b11#2 ++ rd) (0b01#2 ++ rs2) 0b01#2)
  | .c_or rd rs2 => (encC 0b100#3 0b0#1 (0b11#2 ++ rd) (0b10#2 ++ rs2) 0b01#2)
  | .c_and rd rs2 => (encC 0b100#3 0b0#1 (0b11#2 ++ rd) (0b11#2 ++ rs2) 0b01#2)
  | .c_subw rd rs2 => (encC 0b100#3 0b1#1 (0b11#2 ++ rd) (0b00#2 ++ rs2) 0b01#2)
  | .c_addw rd rs2 => (encC 0b100#3 0b1#1 (0b11#2 ++ rd) (0b01#2 ++ rs2) 0b01#2)
  | .c_j imm => (encCJ 0b101#3 imm)
  | .c_beqz rs1 imm => (encCB 0b110#3 imm rs1)
  | .c_bnez rs1 imm => (encCB 0b111#3 imm rs1)
  | .c_slli rd shamt => (encCI 0b000#3 shamt rd 0b10#2)
  | .c_fldsp rd uimm => (encCSP8 0b001#3 uimm rd)
  | .c_lwsp rd uimm => (encCSP4 0b010#3 uimm rd)
  | .c_flwsp rd uimm => (encCSP4 0b011#3 uimm rd)
  | .c_ldsp rd uimm => (encCSP8 0b011#3 uimm rd)
  | .c_jr rs1 => (encC 0b100#3 0b0#1 rs1 0#5 0b10#2)
  | .c_mv rd rs2 => (encC 0b100#3 0b0#1 rd rs2 0b10#2)
  | .c_ebreak => (0x9002#16)
  | .c_jalr rs1 => (encC 0b100#3 0b1#1 rs1 0#5 0b10#2)
  | .c_add rd rs2 => (encC 0b100#3 0b1#1 rd rs2 0b10#2)
  | .c_fsdsp rs2 uimm => (encCSS8 0b101#3 uimm rs2)
  | .c_swsp rs2 uimm => (encCSS4 0b110#3 uimm rs2)
  | .c_fswsp rs2 uimm => (encCSS4 0b111#3 uimm rs2)
  | .c_sdsp rs2 uimm => (encCSS8 0b111#3 uimm rs2)
  | .c_lbu rd rs1 uimm => (encCLB 0b00#2 uimm rs1 rd)
  | .c_lhu rd rs1 uimm => (encCLH 0b01#2 0b0#1 uimm rs1 rd)
  | .c_lh rd rs1 uimm => (encCLH 0b01#2 0b1#1 uimm rs1 rd)
  | .c_sb rs1 rs2 uimm => (encCLB 0b10#2 uimm rs1 rs2)
  | .c_sh rs1 rs2 uimm => (encCLH 0b11#2 0b0#1 uimm rs1 rs2)
  | .c_zext_b rd => (encC 0b100#3 0b1#1 (0b11#2 ++ rd) 0b11000#5 0b01#2)
  | .c_sext_b rd => (encC 0b100#3 0b1#1 (0b11#2 ++ rd) 0b11001#5 0b01#2)
  | .c_zext_h rd => (encC 0b100#3 0b1#1 (0b11#2 ++ rd) 0b11010#5 0b01#2)
  | .c_sext_h rd => (encC 0b100#3 0b1#1 (0b11#2 ++ rd) 0b11011#5 0b01#2)
  | .c_zext_w rd => (encC 0b100#3 0b1#1 (0b11#2 ++ rd) 0b11100#5 0b01#2)
  | .c_not rd => (encC 0b100#3 0b1#1 (0b11#2 ++ rd) 0b11101#5 0b01#2)
  | .c_mul rd rs2 => (encC 0b100#3 0b1#1 (0b11#2 ++ rd) (0b10#2 ++ rs2) 0b01#2)
  | .cm_push rlist spimm => (encCMPP 0b11000#5 rlist spimm)
  | .cm_pop rlist spimm => (encCMPP 0b11010#5 rlist spimm)
  | .cm_popretz rlist spimm => (encCMPP 0b11100#5 rlist spimm)
  | .cm_popret rlist spimm => (encCMPP 0b11110#5 rlist spimm)
  | .cm_mvsa01 r1s r2s => (encC 0b101#3 0b0#1 (0b11#2 ++ r1s) (0b01#2 ++ r2s) 0b10#2)
  | .cm_mva01s r1s r2s => (encC 0b101#3 0b0#1 (0b11#2 ++ r1s) (0b11#2 ++ r2s) 0b10#2)
  | .cm_jt index => (encCMJT (0#3 ++ index))
  | .cm_jalt index => (encCMJT index)

/-- The encoding of an instruction (spec/opcode_table.json). -/
def encode : Instr → Code
  | .lui rd imm => .word (encU imm rd 0b0110111#7)
  | .auipc rd imm => .word (encU imm rd 0b0010111#7)
  | .addi rd rs1 imm => .word (encI imm rs1 0b000#3 rd 0b0010011#7)
  | .slti rd rs1 imm => .word (encI imm rs1 0b010#3 rd 0b0010011#7)
  | .sltiu rd rs1 imm => .word (encI imm rs1 0b011#3 rd 0b0010011#7)
  | .xori rd rs1 imm => .word (encI imm rs1 0b100#3 rd 0b0010011#7)
  | .ori rd rs1 imm => .word (encI imm rs1 0b110#3 rd 0b0010011#7)
  | .andi rd rs1 imm => .word (encI imm rs1 0b111#3 rd 0b0010011#7)
  | .slli rd rs1 shamt => .word (encI (0b000000#6 ++ shamt) rs1 0b001#3 rd 0b0010011#7)
  | .srli rd rs1 shamt => .word (encI (0b000000#6 ++ shamt) rs1 0b101#3 rd 0b0010011#7)
  | .srai rd rs1 shamt => .word (encI (0b010000#6 ++ shamt) rs1 0b101#3 rd 0b0010011#7)
  | .add rd rs1 rs2 => .word (encR 0b0000000#7 rs2 rs1 0b000#3 rd 0b0110011#7)
  | .sub rd rs1 rs2 => .word (encR 0b0100000#7 rs2 rs1 0b000#3 rd 0b0110011#7)
  | .sll rd rs1 rs2 => .word (encR 0b0000000#7 rs2 rs1 0b001#3 rd 0b0110011#7)
  | .slt rd rs1 rs2 => .word (encR 0b0000000#7 rs2 rs1 0b010#3 rd 0b0110011#7)
  | .sltu rd rs1 rs2 => .word (encR 0b0000000#7 rs2 rs1 0b011#3 rd 0b0110011#7)
  | .xor rd rs1 rs2 => .word (encR 0b0000000#7 rs2 rs1 0b100#3 rd 0b0110011#7)
  | .srl rd rs1 rs2 => .word (encR 0b0000000#7 rs2 rs1 0b101#3 rd 0b0110011#7)
  | .sra rd rs1 rs2 => .word (encR 0b0100000#7 rs2 rs1 0b101#3 rd 0b0110011#7)
  | .or rd rs1 rs2 => .word (encR 0b0000000#7 rs2 rs1 0b110#3 rd 0b0110011#7)
  | .and rd rs1 rs2 => .word (encR 0b0000000#7 rs2 rs1 0b111#3 rd 0b0110011#7)
  | .fence fm pred succ rs1 rd => .word (encI (fm ++ pred ++ succ) rs1 0b000#3 rd 0b0001111#7)
  | .fence_i imm rs1 rd => .word (encI imm rs1 0b001#3 rd 0b0001111#7)
  | .csrrw rd rs1 csr => .word (encI csr rs1 0b001#3 rd 0b1110011#7)
  | .csrrs rd rs1 csr => .word (encI csr rs1 0b010#3 rd 0b1110011#7)
  | .csrrc rd rs1 csr => .word (encI csr rs1 0b011#3 rd 0b1110011#7)
  | .csrrwi rd uimm csr => .word (encI csr uimm 0b101#3 rd 0b1110011#7)
  | .csrrsi rd uimm csr => .word (encI csr uimm 0b110#3 rd 0b1110011#7)
  | .csrrci rd uimm csr => .word (encI csr uimm 0b111#3 rd 0b1110011#7)
  | .ecall => .word (0x00000073#32)
  | .ebreak => .word (0x00100073#32)
  | .sret => .word (0x10200073#32)
  | .mret => .word (0x30200073#32)
  | .wfi => .word (0x10500073#32)
  | .sfence_vma rs1 rs2 => .word (encR 0b0001001#7 rs2 rs1 0b000#3 0#5 0b1110011#7)
  | .lb rd rs1 imm => .word (encI imm rs1 0b000#3 rd 0b0000011#7)
  | .lh rd rs1 imm => .word (encI imm rs1 0b001#3 rd 0b0000011#7)
  | .lw rd rs1 imm => .word (encI imm rs1 0b010#3 rd 0b0000011#7)
  | .lbu rd rs1 imm => .word (encI imm rs1 0b100#3 rd 0b0000011#7)
  | .lhu rd rs1 imm => .word (encI imm rs1 0b101#3 rd 0b0000011#7)
  | .sb rs1 rs2 imm => .word (encS imm rs2 rs1 0b000#3 0b0100011#7)
  | .sh rs1 rs2 imm => .word (encS imm rs2 rs1 0b001#3 0b0100011#7)
  | .sw rs1 rs2 imm => .word (encS imm rs2 rs1 0b010#3 0b0100011#7)
  | .jal rd imm => .word (encJ imm rd 0b1101111#7)
  | .jalr rd rs1 imm => .word (encI imm rs1 0b000#3 rd 0b1100111#7)
  | .beq rs1 rs2 imm => .word (encB imm rs2 rs1 0b000#3 0b1100011#7)
  | .bne rs1 rs2 imm => .word (encB imm rs2 rs1 0b001#3 0b1100011#7)
  | .blt rs1 rs2 imm => .word (encB imm rs2 rs1 0b100#3 0b1100011#7)
  | .bge rs1 rs2 imm => .word (encB imm rs2 rs1 0b101#3 0b1100011#7)
  | .bltu rs1 rs2 imm => .word (encB imm rs2 rs1 0b110#3 0b1100011#7)
  | .bgeu rs1 rs2 imm => .word (encB imm rs2 rs1 0b111#3 0b1100011#7)
  | .addiw rd rs1 imm => .word (encI imm rs1 0b000#3 rd 0b0011011#7)
  | .slliw rd rs1 shamt => .word (encR 0b0000000#7 shamt rs1 0b001#3 rd 0b0011011#7)
  | .srliw rd rs1 shamt => .word (encR 0b0000000#7 shamt rs1 0b101#3 rd 0b0011011#7)
  | .sraiw rd rs1 shamt => .word (encR 0b0100000#7 shamt rs1 0b101#3 rd 0b0011011#7)
  | .addw rd rs1 rs2 => .word (encR 0b0000000#7 rs2 rs1 0b000#3 rd 0b0111011#7)
  | .subw rd rs1 rs2 => .word (encR 0b0100000#7 rs2 rs1 0b000#3 rd 0b0111011#7)
  | .sllw rd rs1 rs2 => .word (encR 0b0000000#7 rs2 rs1 0b001#3 rd 0b0111011#7)
  | .srlw rd rs1 rs2 => .word (encR 0b0000000#7 rs2 rs1 0b101#3 rd 0b0111011#7)
  | .sraw rd rs1 rs2 => .word (encR 0b0100000#7 rs2 rs1 0b101#3 rd 0b0111011#7)
  | .lwu rd rs1 imm => .word (encI imm rs1 0b110#3 rd 0b0000011#7)
  | .ld rd rs1 imm => .word (encI imm rs1 0b011#3 rd 0b0000011#7)
  | .sd rs1 rs2 imm => .word (encS imm rs2 rs1 0b011#3 0b0100011#7)
  | .mul rd rs1 rs2 => .word (encR 0b0000001#7 rs2 rs1 0b000#3 rd 0b0110011#7)
  | .mulh rd rs1 rs2 => .word (encR 0b0000001#7 rs2 rs1 0b001#3 rd 0b0110011#7)
  | .mulhsu rd rs1 rs2 => .word (encR 0b0000001#7 rs2 rs1 0b010#3 rd 0b0110011#7)
  | .mulhu rd rs1 rs2 => .word (encR 0b0000001#7 rs2 rs1 0b011#3 rd 0b0110011#7)
  | .div rd rs1 rs2 => .word (encR 0b0000001#7 rs2 rs1 0b100#3 rd 0b0110011#7)
  | .divu rd rs1 rs2 => .word (encR 0b0000001#7 rs2 rs1 0b101#3 rd 0b0110011#7)
  | .rem rd rs1 rs2 => .word (encR 0b0000001#7 rs2 rs1 0b110#3 rd 0b0110011#7)
  | .remu rd rs1 rs2 => .word (encR 0b0000001#7 rs2 rs1 0b111#3 rd 0b0110011#7)
  | .mulw rd rs1 rs2 => .word (encR 0b0000001#7 rs2 rs1 0b000#3 rd 0b0111011#7)
  | .divw rd rs1 rs2 => .word (encR 0b0000001#7 rs2 rs1 0b100#3 rd 0b0111011#7)
  | .divuw rd rs1 rs2 => .word (encR 0b0000001#7 rs2 rs1 0b101#3 rd 0b0111011#7)
  | .remw rd rs1 rs2 => .word (encR 0b0000001#7 rs2 rs1 0b110#3 rd 0b0111011#7)
  | .remuw rd rs1 rs2 => .word (encR 0b0000001#7 rs2 rs1 0b111#3 rd 0b0111011#7)
  | .lr_w aq rl rd rs1 => .word (encA 0b00010#5 aq rl 0#5 rs1 0b010#3 rd 0b0101111#7)
  | .sc_w aq rl rd rs1 rs2 => .word (encA 0b00011#5 aq rl rs2 rs1 0b010#3 rd 0b0101111#7)
  | .amoswap_w aq rl rd rs1 rs2 => .word (encA 0b00001#5 aq rl rs2 rs1 0b010#3 rd 0b0101111#7)
  | .amoadd_w aq rl rd rs1 rs2 => .word (encA 0b00000#5 aq rl rs2 rs1 0b010#3 rd 0b0101111#7)
  | .amoxor_w aq rl rd rs1 rs2 => .word (encA 0b00100#5 aq rl rs2 rs1 0b010#3 rd 0b0101111#7)
  | .amoand_w aq rl rd rs1 rs2 => .word (encA 0b01100#5 aq rl rs2 rs1 0b010#3 rd 0b0101111#7)
  | .amoor_w aq rl rd rs1 rs2 => .word (encA 0b01000#5 aq rl rs2 rs1 0b010#3 rd 0b0101111#7)
  | .amomin_w aq rl rd rs1 rs2 => .word (encA 0b10000#5 aq rl rs2 rs1 0b010#3 rd 0b0101111#7)
  | .amomax_w aq rl rd rs1 rs2 => .word (encA 0b10100#5 aq rl rs2 rs1 0b010#3 rd 0b0101111#7)
  | .amominu_w aq rl rd rs1 rs2 => .word (encA 0b11000#5 aq rl rs2 rs1 0b010#3 rd 0b0101111#7)
  | .amomaxu_w aq rl rd rs1 rs2 => .word (encA 0b11100#5 aq rl rs2 rs1 0b010#3 rd 0b0101111#7)
  | .lr_d aq rl rd rs1 => .word (encA 0b00010#5 aq rl 0#5 rs1 0b011#3 rd 0b0101111#7)
  | .sc_d aq rl rd rs1 rs2 => .word (encA 0b00011#5 aq rl rs2 rs1 0b011#3 rd 0b0101111#7)
  | .amoswap_d aq rl rd rs1 rs2 => .word (encA 0b00001#5 aq rl rs2 rs1 0b011#3 rd 0b0101111#7)
  | .amoadd_d aq rl rd rs1 rs2 => .word (encA 0b00000#5 aq rl rs2 rs1 0b011#3 rd 0b0101111#7)
  | .amoxor_d aq rl rd rs1 rs2 => .word (encA 0b00100#5 aq rl rs2 rs1 0b011#3 rd 0b0101111#7)
  | .amoand_d aq rl rd rs1 rs2 => .word (encA 0b01100#5 aq rl rs2 rs1 0b011#3 rd 0b0101111#7)
  | .amoor_d aq rl rd rs1 rs2 => .word (encA 0b01000#5 aq rl rs2 rs1 0b011#3 rd 0b0101111#7)
  | .amomin_d aq rl rd rs1 rs2 => .word (encA 0b10000#5 aq rl rs2 rs1 0b011#3 rd 0b0101111#7)
  | .amomax_d aq rl rd rs1 rs2 => .word (encA 0b10100#5 aq rl rs2 rs1 0b011#3 rd 0b0101111#7)
  | .amominu_d aq rl rd rs1 rs2 => .word (encA 0b11000#5 aq rl rs2 rs1 0b011#3 rd 0b0101111#7)
  | .amomaxu_d aq rl rd rs1 rs2 => .word (encA 0b11100#5 aq rl rs2 rs1 0b011#3 rd 0b0101111#7)
  | .fmadd_s rd rs1 rs2 rs3 rm => .word (encR (rs3 ++ 0b00#2) rs2 rs1 rm rd 0b1000011#7)
  | .fmsub_s rd rs1 rs2 rs3 rm => .word (encR (rs3 ++ 0b00#2) rs2 rs1 rm rd 0b1000111#7)
  | .fnmsub_s rd rs1 rs2 rs3 rm => .word (encR (rs3 ++ 0b00#2) rs2 rs1 rm rd 0b1001011#7)
  | .fnmadd_s rd rs1 rs2 rs3 rm => .word (encR (rs3 ++ 0b00#2) rs2 rs1 rm rd 0b1001111#7)
  | .fadd_s rd rs1 rs2 rm => .word (encR 0b0000000#7 rs2 rs1 rm rd 0b1010011#7)
  | .fsub_s rd rs1 rs2 rm => .word (encR 0b0000100#7 rs2 rs1 rm rd 0b1010011#7)
  | .fmul_s rd rs1 rs2 rm => .word (encR 0b0001000#7 rs2 rs1 rm rd 0b1010011#7)
  | .fdiv_s rd rs1 rs2 rm => .word (encR 0b0001100#7 rs2 rs1 rm rd 0b1010011#7)
  | .fsqrt_s rd rs1 rm => .word (encR 0b0101100#7 0b00000#5 rs1 rm rd 0b1010011#7)
  | .fsgnj_s rd rs1 rs2 => .word (encR 0b0010000#7 rs2 rs1 0b000#3 rd 0b1010011#7)
  | .fsgnjn_s rd rs1 rs2 => .word (encR 0b0010000#7 rs2 rs1 0b001#3 rd 0b1010011#7)
  | .fsgnjx_s rd rs1 rs2 => .word (encR 0b0010000#7 rs2 rs1 0b010#3 rd 0b1010011#7)
  | .fmin_s rd rs1 rs2 => .word (encR 0b0010100#7 rs2 rs1 0b000#3 rd 0b1010011#7)
  | .fmax_s rd rs1 rs2 => .word (encR 0b0010100#7 rs2 rs1 0b001#3 rd 0b1010011#7)
  | .feq_s rd rs1 rs2 => .word (encR 0b1010000#7 rs2 rs1 0b010#3 rd 0b1010011#7)
  | .flt_s rd rs1 rs2 => .word (encR 0b1010000#7 rs2 rs1 0b001#3 rd 0b1010011#7)
  | .fle_s rd rs1 rs2 => .word (encR 0b1010000#7 rs2 rs1 0b000#3 rd 0b1010011#7)
  | .fclass_s rd rs1 => .word (encR 0b1110000#7 0b00000#5 rs1 0b001#3 rd 0b1010011#7)
  | .fcvt_w_s rd rs1 rm => .word (encR 0b1100000#7 0b00000#5 rs1 rm rd 0b1010011#7)
  | .fcvt_wu_s rd rs1 rm => .word (encR 0b1100000#7 0b00001#5 rs1 rm rd 0b1010011#7)
  | .fcvt_l_s rd rs1 rm => .word (encR 0b1100000#7 0b00010#5 rs1 rm rd 0b1010011#7)
  | .fcvt_lu_s rd rs1 rm => .word (encR 0b1100000#7 0b00011#5 rs1 rm rd 0b1010011#7)
  | .fcvt_s_w rd rs1 rm => .word (encR 0b1101000#7 0b00000#5 rs1 rm rd 0b1010011#7)
  | .fcvt_s_wu rd rs1 rm => .word (encR 0b1101000#7 0b00001#5 rs1 rm rd 0b1010011#7)
  | .fcvt_s_l rd rs1 rm => .word (encR 0b1101000#7 0b00010#5 rs1 rm rd 0b1010011#7)
  | .fcvt_s_lu rd rs1 rm => .word (encR 0b1101000#7 0b00011#5 rs1 rm rd 0b1010011#7)
  | .fmv_x_w rd rs1 => .word (encR 0b1110000#7 0b00000#5 rs1 0b000#3 rd 0b1010011#7)
  | .fmv_w_x rd rs1 => .word (encR 0b1111000#7 0b00000#5 rs1 0b000#3 rd 0b1010011#7)
  | .fmadd_d rd rs1 rs2 rs3 rm => .word (encR (rs3 ++ 0b01#2) rs2 rs1 rm rd 0b1000011#7)
  | .fmsub_d rd rs1 rs2 rs3 rm => .word (encR (rs3 ++ 0b01#2) rs2 rs1 rm rd 0b1000111#7)
  | .fnmsub_d rd rs1 rs2 rs3 rm => .word (encR (rs3 ++ 0b01#2) rs2 rs1 rm rd 0b1001011#7)
  | .fnmadd_d rd rs1 rs2 rs3 rm => .word (encR (rs3 ++ 0b01#2) rs2 rs1 rm rd 0b1001111#7)
  | .fadd_d rd rs1 rs2 rm => .word (encR 0b0000001#7 rs2 rs1 rm rd 0b1010011#7)
  | .fsub_d rd rs1 rs2 rm => .word (encR 0b0000101#7 rs2 rs1 rm rd 0b1010011#7)
  | .fmul_d rd rs1 rs2 rm => .word (encR 0b0001001#7 rs2 rs1 rm rd 0b1010011#7)
  | .fdiv_d rd rs1 rs2 rm => .word (encR 0b0001101#7 rs2 rs1 rm rd 0b1010011#7)
  | .fsqrt_d rd rs1 rm => .word (encR 0b0101101#7 0b00000#5 rs1 rm rd 0b1010011#7)
  | .fsgnj_d rd rs1 rs2 => .word (encR 0b0010001#7 rs2 rs1 0b000#3 rd 0b1010011#7)
  | .fsgnjn_d rd rs1 rs2 => .word (encR 0b0010001#7 rs2 rs1 0b001#3 rd 0b1010011#7)
  | .fsgnjx_d rd rs1 rs2 => .word (encR 0b0010001#7 rs2 rs1 0b010#3 rd 0b1010011#7)
  | .fmin_d rd rs1 rs2 => .word (encR 0b0010101#7 rs2 rs1 0b000#3 rd 0b1010011#7)
  | .fmax_d rd rs1 rs2 => .word (encR 0b0010101#7 rs2 rs1 0b001#3 rd 0b1010011#7)
  | .feq_d rd rs1 rs2 => .word (encR 0b1010001#7 rs2 rs1 0b010#3 rd 0b1010011#7)
  | .flt_d rd rs1 rs2 => .word (encR 0b1010001#7 rs2 rs1 0b001#3 rd 0b1010011#7)
  | .fle_d rd rs1 rs2 => .word (encR 0b1010001#7 rs2 rs1 0b000#3 rd 0b1010011#7)
  | .fclass_d rd rs1 => .word (encR 0b1110001#7 0b00000#5 rs1 0b001#3 rd 0b1010011#7)
  | .fcvt_w_d rd rs1 rm => .word (encR 0b1100001#7 0b00000#5 rs1 rm rd 0b1010011#7)
  | .fcvt_wu_d rd rs1 rm => .word (encR 0b1100001#7 0b00001#5 rs1 rm rd 0b1010011#7)
  | .fcvt_l_d rd rs1 rm => .word (encR 0b1100001#7 0b00010#5 rs1 rm rd 0b1010011#7)
  | .fcvt_lu_d rd rs1 rm => .word (encR 0b1100001#7 0b00011#5 rs1 rm rd 0b1010011#7)
  | .fcvt_d_w rd rs1 rm => .word (encR 0b1101001#7 0b00000#5 rs1 rm rd 0b1010011#7)
  | .fcvt_d_wu rd rs1 rm => .word (encR 0b1101001#7 0b00001#5 rs1 rm rd 0b1010011#7)
  | .fcvt_d_l rd rs1 rm => .word (encR 0b1101001#7 0b00010#5 rs1 rm rd 0b1010011#7)
  | .fcvt_d_lu rd rs1 rm => .word (encR 0b1101001#7 0b00011#5 rs1 rm rd 0b1010011#7)
  | .fcvt_s_d rd rs1 rm => .word (encR 0b0100000#7 0b00001#5 rs1 rm rd 0b1010011#7)
  | .fcvt_d_s rd rs1 rm => .word (encR 0b0100001#7 0b00000#5 rs1 rm rd 0b1010011#7)
  | .fmv_x_d rd rs1 => .word (encR 0b1110001#7 0b00000#5 rs1 0b000#3 rd 0b1010011#7)
  | .fmv_d_x rd rs1 => .word (encR 0b1111001#7 0b00000#5 rs1 0b000#3 rd 0b1010011#7)
  | .flw rd rs1 imm => .word (encI imm rs1 0b010#3 rd 0b0000111#7)
  | .fsw rs1 rs2 imm => .word (encS imm rs2 rs1 0b010#3 0b0100111#7)
  | .fld rd rs1 imm => .word (encI imm rs1 0b011#3 rd 0b0000111#7)
  | .fsd rs1 rs2 imm => .word (encS imm rs2 rs1 0b011#3 0b0100111#7)
  | .fmadd_h rd rs1 rs2 rs3 rm => .word (encR (rs3 ++ 0b10#2) rs2 rs1 rm rd 0b1000011#7)
  | .fmsub_h rd rs1 rs2 rs3 rm => .word (encR (rs3 ++ 0b10#2) rs2 rs1 rm rd 0b1000111#7)
  | .fnmsub_h rd rs1 rs2 rs3 rm => .word (encR (rs3 ++ 0b10#2) rs2 rs1 rm rd 0b1001011#7)
  | .fnmadd_h rd rs1 rs2 rs3 rm => .word (encR (rs3 ++ 0b10#2) rs2 rs1 rm rd 0b1001111#7)
  | .fadd_h rd rs1 rs2 rm => .word (encR 0b0000010#7 rs2 rs1 rm rd 0b1010011#7)
  | .fsub_h rd rs1 rs2 rm => .word (encR 0b0000110#7 rs2 rs1 rm rd 0b1010011#7)
  | .fmul_h rd rs1 rs2 rm => .word (encR 0b0001010#7 rs2 rs1 rm rd 0b1010011#7)
  | .fdiv_h rd rs1 rs2 rm => .word (encR 0b0001110#7 rs2 rs1 rm rd 0b1010011#7)
  | .fsqrt_h rd rs1 rm => .word (encR 0b0101110#7 0b00000#5 rs1 rm rd 0b1010011#7)
  | .fsgnj_h rd rs1 rs2 => .word (encR 0b0010010#7 rs2 rs1 0b000#3 rd 0b1010011#7)
  | .fsgnjn_h rd rs1 rs2 => .word (encR 0b0010010#7 rs2 rs1 0b001#3 rd 0b1010011#7)
  | .fsgnjx_h rd rs1 rs2 => .word (encR 0b0010010#7 rs2 rs1 0b010#3 rd 0b1010011#7)
  | .fmin_h rd rs1 rs2 => .word (encR 0b0010110#7 rs2 rs1 0b000#3 rd 0b1010011#7)
  | .fmax_h rd rs1 rs2 => .word (encR 0b0010110#7 rs2 rs1 0b001#3 rd 0b1010011#7)
  | .feq_h rd rs1 rs2 => .word (encR 0b1010010#7 rs2 rs1 0b010#3 rd 0b1010011#7)
  | .flt_h rd rs1 rs2 => .word (encR 0b1010010#7 rs2 rs1 0b001#3 rd 0b1010011#7)
  | .fle_h rd rs1 rs2 => .word (encR 0b1010010#7 rs2 rs1 0b000#3 rd 0b1010011#7)
  | .fclass_h rd rs1 => .word (encR 0b1110010#7 0b00000#5 rs1 0b001#3 rd 0b1010011#7)
  | .fcvt_w_h rd rs1 rm => .word (encR 0b1100010#7 0b00000#5 rs1 rm rd 0b1010011#7)
  | .fcvt_wu_h rd rs1 rm => .word (encR 0b1100010#7 0b00001#5 rs1 rm rd 0b1010011#7)
  | .fcvt_l_h rd rs1 rm => .word (encR 0b1100010#7 0b00010#5 rs1 rm rd 0b1010011#7)
  | .fcvt_lu_h rd rs1 rm => .word (encR 0b1100010#7 0b00011#5 rs1 rm rd 0b1010011#7)
  | .fcvt_h_w rd rs1 rm => .word (encR 0b1101010#7 0b00000#5 rs1 rm rd 0b1010011#7)
  | .fcvt_h_wu rd rs1 rm => .word (encR 0b1101010#7 0b00001#5 rs1 rm rd 0b1010011#7)
  | .fcvt_h_l rd rs1 rm => .word (encR 0b1101010#7 0b00010#5 rs1 rm rd 0b1010011#7)
  | .fcvt_h_lu rd rs1 rm => .word (encR 0b1101010#7 0b00011#5 rs1 rm rd 0b1010011#7)
  | .fcvt_s_h rd rs1 rm => .word (encR 0b0100000#7 0b00010#5 rs1 rm rd 0b1010011#7)
  | .fcvt_h_s rd rs1 rm => .word (encR 0b0100010#7 0b00000#5 rs1 rm rd 0b1010011#7)
  | .fcvt_d_h rd rs1 rm => .word (encR 0b0100001#7 0b00010#5 rs1 rm rd 0b1010011#7)
  | .fcvt_h_d rd rs1 rm => .word (encR 0b0100010#7 0b00001#5 rs1 rm rd 0b1010011#7)
  | .fcvt_q_h rd rs1 rm => .word (encR 0b0100011#7 0b00010#5 rs1 rm rd 0b1010011#7)
  | .fcvt_h_q rd rs1 rm => .word (encR 0b0100010#7 0b00011#5 rs1 rm rd 0b1010011#7)
  | .fmv_x_h rd rs1 => .word (encR 0b1110010#7 0b00000#5 rs1 0b000#3 rd 0b1010011#7)
  | .fmv_h_x rd rs1 => .word (encR 0b1111010#7 0b00000#5 rs1 0b000#3 rd 0b1010011#7)
  | .flh rd rs1 imm => .word (encI imm rs1 0b001#3 rd 0b0000111#7)
  | .fsh rs1 rs2 imm => .word (encS imm rs2 rs1 0b001#3 0b0100111#7)
  | .add_uw rd rs1 rs2 => .word (encR 0b0000100#7 rs2 rs1 0b000#3 rd 0b0111011#7)
  | .sh1add rd rs1 rs2 => .word (encR 0b0010000#7 rs2 rs1 0b010#3 rd 0b0110011#7)
  | .sh2add rd rs1 rs2 => .word (encR 0b0010000#7 rs2 rs1 0b100#3 rd 0b0110011#7)
  | .sh3add rd rs1 rs2 => .word (encR 0b0010000#7 rs2 rs1 0b110#3 rd 0b0110011#7)
  | .sh1add_uw rd rs1 rs2 => .word (encR 0b0010000#7 rs2 rs1 0b010#3 rd 0b0111011#7)
  | .sh2add_uw rd rs1 rs2 => .word (encR 0b0010000#7 rs2 rs1 0b100#3 rd 0b0111011#7)
  | .sh3add_uw rd rs1 rs2 => .word (encR 0b0010000#7 rs2 rs1 0b110#3 rd 0b0111011#7)
  | .slli_uw rd rs1 shamt => .word (encI (0b000010#6 ++ shamt) rs1 0b001#3 rd 0b0011011#7)
  | .andn rd rs1 rs2 => .word (encR 0b0100000#7 rs2 rs1 0b111#3 rd 0b0110011#7)
  | .orn rd rs1 rs2 => .word (encR 0b0100000#7 rs2 rs1 0b110#3 rd 0b0110011#7)
  | .xnor rd rs1 rs2 => .word (encR 0b0100000#7 rs2 rs1 0b100#3 rd 0b0110011#7)
  | .clz rd rs1 => .word (encI 0b011000000000#12 rs1 0b001#3 rd 0b0010011#7)
  | .clzw rd rs1 => .word (encI 0b011000000000#12 rs1 0b001#3 rd 0b0011011#7)
  | .ctz rd rs1 => .word (encI 0b011000000001#12 rs1 0b001#3 rd 0b0010011#7)
  | .ctzw rd rs1 => .word (encI 0b011000000001#12 rs1 0b001#3 rd 0b0011011#7)
  | .cpop rd rs1 => .word (encI 0b011000000010#12 rs1 0b001#3 rd 0b0010011#7)
  | .cpopw rd rs1 => .word (encI 0b011000000010#12 rs1 0b001#3 rd 0b0011011#7)
  | .sext_b rd rs1 => .word (encI 0b011000000100#12 rs1 0b001#3 rd 0b0010011#7)
  | .sext_h rd rs1 => .word (encI 0b011000000101#12 rs1 0b001#3 rd 0b0010011#7)
  | .max rd rs1 rs2 => .word (encR 0b0000101#7 rs2 rs1 0b110#3 rd 0b0110011#7)
  | .maxu rd rs1 rs2 => .word (encR 0b0000101#7 rs2 rs1 0b111#3 rd 0b0110011#7)
  | .min rd rs1 rs2 => .word (encR 0b0000101#7 rs2 rs1 0b100#3 rd 0b0110011#7)
  | .minu rd rs1 rs2 => .word (encR 0b0000101#7 rs2 rs1 0b101#3 rd 0b0110011#7)
  | .zext_h_rv32 rd rs1 => .word (encR 0b0000100#7 0b00000#5 rs1 0b100#3 rd 0b0110011#7)
  | .zext_h_rv64 rd rs1 => .word (encR 0b0000100#7 0b00000#5 rs1 0b100#3 rd 0b0111011#7)
  | .rol rd rs1 rs2 => .word (encR 0b0110000#7 rs2 rs1 0b001#3 rd 0b0110011#7)
  | .rolw rd rs1 rs2 => .word (encR 0b0110000#7 rs2 rs1 0b001#3 rd 0b0111011#7)
  | .ror rd rs1 rs2 => .word (encR 0b0110000#7 rs2 rs1 0b101#3 rd 0b0110011#7)
  | .rori rd rs1 shamt => .word (encI (0b011000#6 ++ shamt) rs1 0b101#3 rd 0b0010011#7)
  | .roriw rd rs1 shamt => .word (encR 0b0110000#7 shamt rs1 0b101#3 rd 0b0011011#7)
  | .rorw rd rs1 rs2 => .word (encR 0b0110000#7 rs2 rs1 0b101#3 rd 0b0111011#7)
  | .orc_b rd rs1 => .word (encI 0b001010000111#12 rs1 0b101#3 rd 0b0010011#7)
  | .rev8_rv32 rd rs1 => .word (encI 0b011010011000#12 rs1 0b101#3 rd 0b0010011#7)
  | .rev8_rv64 rd rs1 => .word (encI 0b011010111000#12 rs1 0b101#3 rd 0b0010011#7)
  | .clmul rd rs1 rs2 => .word (encR 0b0000101#7 rs2 rs1 0b001#3 rd 0b0110011#7)
  | .clmulh rd rs1 rs2 => .word (encR 0b0000101#7 rs2 rs1 0b011#3 rd 0b0110011#7)
  | .clmulr rd rs1 rs2 => .word (encR 0b0000101#7 rs2 rs1 0b010#3 rd 0b0110011#7)
  | .bclr rd rs1 rs2 => .word (encR 0b0100100#7 rs2 rs1 0b001#3 rd 0b0110011#7)
  | .bclri rd rs1 shamt => .word (encI (0b010010#6 ++ shamt) rs1 0b001#3 rd 0b0010011#7)
  | .bext rd rs1 rs2 => .word (encR 0b0100100#7 rs2 rs1 0b101#3 rd 0b0110011#7)
  | .bexti rd rs1 shamt => .word (encI (0b010010#6 ++ shamt) rs1 0b101#3 rd 0b0010011#7)
  | .binv rd rs1 rs2 => .word (encR 0b0110100#7 rs2 rs1 0b001#3 rd 0b0110011#7)
  | .binvi rd rs1 shamt => .word (encI (0b011010#6 ++ shamt) rs1 0b001#3 rd 0b0010011#7)
  | .bset rd rs1 rs2 => .word (encR 0b0010100#7 rs2 rs1 0b001#3 rd 0b0110011#7)
  | .bseti rd rs1 shamt => .word (encI (0b001010#6 ++ shamt) rs1 0b001#3 rd 0b0010011#7)
  | .czero_eqz rd rs1 rs2 => .word (encR 0b0000111#7 rs2 rs1 0b101#3 rd 0b0110011#7)
  | .czero_nez rd rs1 rs2 => .word (encR 0b0000111#7 rs2 rs1 0b111#3 rd 0b0110011#7)
  | .c_addi4spn rd imm => .half (CInstr.encode (.c_addi4spn rd imm))
  | .c_fld rd rs1 uimm => .half (CInstr.encode (.c_fld rd rs1 uimm))
  | .c_lw rd rs1 uimm => .half (CInstr.encode (.c_lw rd rs1 uimm))
  | .c_flw rd rs1 uimm => .half (CInstr.encode (.c_flw rd rs1 uimm))
  | .c_ld rd rs1 uimm => .half (CInstr.encode (.c_ld rd rs1 uimm))
  | .c_fsd rs1 rs2 uimm => .half (CInstr.encode (.c_fsd rs1 rs2 uimm))
  | .c_sw rs1 rs2 uimm => .half (CInstr.encode (.c_sw rs1 rs2 uimm))
  | .c_fsw rs1 rs2 uimm => .half (CInstr.encode (.c_fsw rs1 rs2 uimm))
  | .c_sd rs1 rs2 uimm => .half (CInstr.encode (.c_sd rs1 rs2 uimm))
  | .c_nop imm => .half (CInstr.encode (.c_nop imm))
  | .c_addi rd imm => .half (CInstr.encode (.c_addi rd imm))
  | .c_jal imm => .half (CInstr.encode (.c_jal imm))
  | .c_addiw rd imm => .half (CInstr.encode (.c_addiw rd imm))
  | .c_li rd imm => .half (CInstr.encode (.c_li rd imm))
  | .c_addi16sp imm => .half (CInstr.encode (.c_addi16sp imm))
  | .c_lui rd imm => .half (CInstr.encode (.c_lui rd imm))
  | .c_srli rd shamt => .half (CInstr.encode (.c_srli rd shamt))
  | .c_srai rd shamt => .half (CInstr.encode (.c_srai rd shamt))
  | .c_andi rd imm => .half (CInstr.encode (.c_andi rd imm))
  | .c_sub rd rs2 => .half (CInstr.encode (.c_sub rd rs2))
  | .c_xor rd rs2 => .half (CInstr.encode (.c_xor rd rs2))
  | .c_or rd rs2 => .half (CInstr.encode (.c_or rd rs2))
  | .c_and rd rs2 => .half (CInstr.encode (.c_and rd rs2))
  | .c_subw rd rs2 => .half (CInstr.encode (.c_subw rd rs2))
  | .c_addw rd rs2 => .half (CInstr.encode (.c_addw rd rs2))
  | .c_j imm => .half (CInstr.encode (.c_j imm))
  | .c_beqz rs1 imm => .half (CInstr.encode (.c_beqz rs1 imm))
  | .c_bnez rs1 imm => .half (CInstr.encode (.c_bnez rs1 imm))
  | .c_slli rd shamt => .half (CInstr.encode (.c_slli rd shamt))
  | .c_fldsp rd uimm => .half (CInstr.encode (.c_fldsp rd uimm))
  | .c_lwsp rd uimm => .half (CInstr.encode (.c_lwsp rd uimm))
  | .c_flwsp rd uimm => .half (CInstr.encode (.c_flwsp rd uimm))
  | .c_ldsp rd uimm => .half (CInstr.encode (.c_ldsp rd uimm))
  | .c_jr rs1 => .half (CInstr.encode (.c_jr rs1))
  | .c_mv rd rs2 => .half (CInstr.encode (.c_mv rd rs2))
  | .c_ebreak => .half (CInstr.encode .c_ebreak)
  | .c_jalr rs1 => .half (CInstr.encode (.c_jalr rs1))
  | .c_add rd rs2 => .half (CInstr.encode (.c_add rd rs2))
  | .c_fsdsp rs2 uimm => .half (CInstr.encode (.c_fsdsp rs2 uimm))
  | .c_swsp rs2 uimm => .half (CInstr.encode (.c_swsp rs2 uimm))
  | .c_fswsp rs2 uimm => .half (CInstr.encode (.c_fswsp rs2 uimm))
  | .c_sdsp rs2 uimm => .half (CInstr.encode (.c_sdsp rs2 uimm))
  | .c_lbu rd rs1 uimm => .half (CInstr.encode (.c_lbu rd rs1 uimm))
  | .c_lhu rd rs1 uimm => .half (CInstr.encode (.c_lhu rd rs1 uimm))
  | .c_lh rd rs1 uimm => .half (CInstr.encode (.c_lh rd rs1 uimm))
  | .c_sb rs1 rs2 uimm => .half (CInstr.encode (.c_sb rs1 rs2 uimm))
  | .c_sh rs1 rs2 uimm => .half (CInstr.encode (.c_sh rs1 rs2 uimm))
  | .c_zext_b rd => .half (CInstr.encode (.c_zext_b rd))
  | .c_sext_b rd => .half (CInstr.encode (.c_sext_b rd))
  | .c_zext_h rd => .half (CInstr.encode (.c_zext_h rd))
  | .c_sext_h rd => .half (CInstr.encode (.c_sext_h rd))
  | .c_zext_w rd => .half (CInstr.encode (.c_zext_w rd))
  | .c_not rd => .half (CInstr.encode (.c_not rd))
  | .c_mul rd rs2 => .half (CInstr.encode (.c_mul rd rs2))
  | .cm_push rlist spimm => .half (CInstr.encode (.cm_push rlist spimm))
  | .cm_pop rlist spimm => .half (CInstr.encode (.cm_pop rlist spimm))
  | .cm_popretz rlist spimm => .half (CInstr.encode (.cm_popretz rlist spimm))
  | .cm_popret rlist spimm => .half (CInstr.encode (.cm_popret rlist spimm))
  | .cm_mvsa01 r1s r2s => .half (CInstr.encode (.cm_mvsa01 r1s r2s))
  | .cm_mva01s r1s r2s => .half (CInstr.encode (.cm_mva01s r1s r2s))
  | .cm_jt index => .half (CInstr.encode (.cm_jt index))
  | .cm_jalt index => .half (CInstr.encode (.cm_jalt index))

/-! ### The 32-bit opcode map (30_encoding.md R180 to R187) -/

/-- LOAD (R184). -/
def parseLoad (w : BitVec 32) : Option Instr :=
  match funct3F w with
  | 0b000#3 => some (.lb (rdF w) (rs1F w) (immIF w))
  | 0b001#3 => some (.lh (rdF w) (rs1F w) (immIF w))
  | 0b010#3 => some (.lw (rdF w) (rs1F w) (immIF w))
  | 0b100#3 => some (.lbu (rdF w) (rs1F w) (immIF w))
  | 0b101#3 => some (.lhu (rdF w) (rs1F w) (immIF w))
  | 0b110#3 => some (.lwu (rdF w) (rs1F w) (immIF w))
  | 0b011#3 => some (.ld (rdF w) (rs1F w) (immIF w))
  | _ => none

/-- LOAD-FP (R184). -/
def parseLoadFp (w : BitVec 32) : Option Instr :=
  match funct3F w with
  | 0b010#3 => some (.flw (rdF w) (rs1F w) (immIF w))
  | 0b011#3 => some (.fld (rdF w) (rs1F w) (immIF w))
  | 0b001#3 => some (.flh (rdF w) (rs1F w) (immIF w))
  | _ => none

/-- MISC-MEM (R184). -/
def parseMiscMem (w : BitVec 32) : Option Instr :=
  match funct3F w with
  | 0b000#3 => some (.fence (fmF w) (predF w) (succF w) (rs1F w) (rdF w))
  | 0b001#3 => some (.fence_i (immIF w) (rs1F w) (rdF w))
  | _ => none

/-- OP-IMM (R181). -/
def parseOpImm (w : BitVec 32) : Option Instr :=
  match funct3F w with
  | 0b000#3 => some (.addi (rdF w) (rs1F w) (immIF w))
  | 0b010#3 => some (.slti (rdF w) (rs1F w) (immIF w))
  | 0b011#3 => some (.sltiu (rdF w) (rs1F w) (immIF w))
  | 0b100#3 => some (.xori (rdF w) (rs1F w) (immIF w))
  | 0b110#3 => some (.ori (rdF w) (rs1F w) (immIF w))
  | 0b111#3 => some (.andi (rdF w) (rs1F w) (immIF w))
  | 0b001#3 =>
    match funct6F w with
    | 0b000000#6 => some (.slli (rdF w) (rs1F w) (shamtF w))
    | 0b001010#6 => some (.bseti (rdF w) (rs1F w) (shamtF w))
    | 0b010010#6 => some (.bclri (rdF w) (rs1F w) (shamtF w))
    | 0b011010#6 => some (.binvi (rdF w) (rs1F w) (shamtF w))
    | 0b011000#6 =>
      match immIF w with
      | 0b011000000000#12 => some (.clz (rdF w) (rs1F w))
      | 0b011000000001#12 => some (.ctz (rdF w) (rs1F w))
      | 0b011000000010#12 => some (.cpop (rdF w) (rs1F w))
      | 0b011000000100#12 => some (.sext_b (rdF w) (rs1F w))
      | 0b011000000101#12 => some (.sext_h (rdF w) (rs1F w))
      | _ => none
    | _ => none
  | 0b101#3 =>
    match funct6F w with
    | 0b000000#6 => some (.srli (rdF w) (rs1F w) (shamtF w))
    | 0b010000#6 => some (.srai (rdF w) (rs1F w) (shamtF w))
    | 0b011000#6 => some (.rori (rdF w) (rs1F w) (shamtF w))
    | 0b010010#6 => some (.bexti (rdF w) (rs1F w) (shamtF w))
    | 0b001010#6 =>
      match immIF w with
      | 0b001010000111#12 => some (.orc_b (rdF w) (rs1F w))
      | _ => none
    | 0b011010#6 =>
      match immIF w with
      | 0b011010011000#12 => some (.rev8_rv32 (rdF w) (rs1F w))
      | 0b011010111000#12 => some (.rev8_rv64 (rdF w) (rs1F w))
      | _ => none
    | _ => none
  | _ => none

/-- OP-IMM-32 (R183). -/
def parseOpImm32 (w : BitVec 32) : Option Instr :=
  match funct3F w with
  | 0b000#3 => some (.addiw (rdF w) (rs1F w) (immIF w))
  | 0b001#3 =>
    match funct6F w with
    | 0b000010#6 => some (.slli_uw (rdF w) (rs1F w) (shamtF w))
    | _ =>
      match funct7F w with
      | 0b0000000#7 => some (.slliw (rdF w) (rs1F w) (rs2F w))
      | 0b0110000#7 =>
        match immIF w with
        | 0b011000000000#12 => some (.clzw (rdF w) (rs1F w))
        | 0b011000000001#12 => some (.ctzw (rdF w) (rs1F w))
        | 0b011000000010#12 => some (.cpopw (rdF w) (rs1F w))
        | _ => none
      | _ => none
  | 0b101#3 =>
    match funct7F w with
    | 0b0000000#7 => some (.srliw (rdF w) (rs1F w) (rs2F w))
    | 0b0100000#7 => some (.sraiw (rdF w) (rs1F w) (rs2F w))
    | 0b0110000#7 => some (.roriw (rdF w) (rs1F w) (rs2F w))
    | _ => none
  | _ => none

/-- STORE (R184). -/
def parseStore (w : BitVec 32) : Option Instr :=
  match funct3F w with
  | 0b000#3 => some (.sb (rs1F w) (rs2F w) (immSF w))
  | 0b001#3 => some (.sh (rs1F w) (rs2F w) (immSF w))
  | 0b010#3 => some (.sw (rs1F w) (rs2F w) (immSF w))
  | 0b011#3 => some (.sd (rs1F w) (rs2F w) (immSF w))
  | _ => none

/-- STORE-FP (R184). -/
def parseStoreFp (w : BitVec 32) : Option Instr :=
  match funct3F w with
  | 0b010#3 => some (.fsw (rs1F w) (rs2F w) (immSF w))
  | 0b011#3 => some (.fsd (rs1F w) (rs2F w) (immSF w))
  | 0b001#3 => some (.fsh (rs1F w) (rs2F w) (immSF w))
  | _ => none

/-- AMO, word (R186). -/
def parseAmoW (w : BitVec 32) : Option Instr :=
  match funct5F w with
  | 0b00010#5 => if rs2F w = 0#5 then some (.lr_w (aqF w) (rlF w) (rdF w) (rs1F w)) else none
  | 0b00011#5 => some (.sc_w (aqF w) (rlF w) (rdF w) (rs1F w) (rs2F w))
  | 0b00001#5 => some (.amoswap_w (aqF w) (rlF w) (rdF w) (rs1F w) (rs2F w))
  | 0b00000#5 => some (.amoadd_w (aqF w) (rlF w) (rdF w) (rs1F w) (rs2F w))
  | 0b00100#5 => some (.amoxor_w (aqF w) (rlF w) (rdF w) (rs1F w) (rs2F w))
  | 0b01100#5 => some (.amoand_w (aqF w) (rlF w) (rdF w) (rs1F w) (rs2F w))
  | 0b01000#5 => some (.amoor_w (aqF w) (rlF w) (rdF w) (rs1F w) (rs2F w))
  | 0b10000#5 => some (.amomin_w (aqF w) (rlF w) (rdF w) (rs1F w) (rs2F w))
  | 0b10100#5 => some (.amomax_w (aqF w) (rlF w) (rdF w) (rs1F w) (rs2F w))
  | 0b11000#5 => some (.amominu_w (aqF w) (rlF w) (rdF w) (rs1F w) (rs2F w))
  | 0b11100#5 => some (.amomaxu_w (aqF w) (rlF w) (rdF w) (rs1F w) (rs2F w))
  | _ => none

/-- AMO, doubleword (R186). -/
def parseAmoD (w : BitVec 32) : Option Instr :=
  match funct5F w with
  | 0b00010#5 => if rs2F w = 0#5 then some (.lr_d (aqF w) (rlF w) (rdF w) (rs1F w)) else none
  | 0b00011#5 => some (.sc_d (aqF w) (rlF w) (rdF w) (rs1F w) (rs2F w))
  | 0b00001#5 => some (.amoswap_d (aqF w) (rlF w) (rdF w) (rs1F w) (rs2F w))
  | 0b00000#5 => some (.amoadd_d (aqF w) (rlF w) (rdF w) (rs1F w) (rs2F w))
  | 0b00100#5 => some (.amoxor_d (aqF w) (rlF w) (rdF w) (rs1F w) (rs2F w))
  | 0b01100#5 => some (.amoand_d (aqF w) (rlF w) (rdF w) (rs1F w) (rs2F w))
  | 0b01000#5 => some (.amoor_d (aqF w) (rlF w) (rdF w) (rs1F w) (rs2F w))
  | 0b10000#5 => some (.amomin_d (aqF w) (rlF w) (rdF w) (rs1F w) (rs2F w))
  | 0b10100#5 => some (.amomax_d (aqF w) (rlF w) (rdF w) (rs1F w) (rs2F w))
  | 0b11000#5 => some (.amominu_d (aqF w) (rlF w) (rdF w) (rs1F w) (rs2F w))
  | 0b11100#5 => some (.amomaxu_d (aqF w) (rlF w) (rdF w) (rs1F w) (rs2F w))
  | _ => none

/-- OP (R182). -/
def parseOp (w : BitVec 32) : Option Instr :=
  match funct7F w, funct3F w with
  | 0b0000000#7, 0b000#3 => some (.add (rdF w) (rs1F w) (rs2F w))
  | 0b0100000#7, 0b000#3 => some (.sub (rdF w) (rs1F w) (rs2F w))
  | 0b0000000#7, 0b001#3 => some (.sll (rdF w) (rs1F w) (rs2F w))
  | 0b0000000#7, 0b010#3 => some (.slt (rdF w) (rs1F w) (rs2F w))
  | 0b0000000#7, 0b011#3 => some (.sltu (rdF w) (rs1F w) (rs2F w))
  | 0b0000000#7, 0b100#3 => some (.xor (rdF w) (rs1F w) (rs2F w))
  | 0b0000000#7, 0b101#3 => some (.srl (rdF w) (rs1F w) (rs2F w))
  | 0b0100000#7, 0b101#3 => some (.sra (rdF w) (rs1F w) (rs2F w))
  | 0b0000000#7, 0b110#3 => some (.or (rdF w) (rs1F w) (rs2F w))
  | 0b0000000#7, 0b111#3 => some (.and (rdF w) (rs1F w) (rs2F w))
  | 0b0000001#7, 0b000#3 => some (.mul (rdF w) (rs1F w) (rs2F w))
  | 0b0000001#7, 0b001#3 => some (.mulh (rdF w) (rs1F w) (rs2F w))
  | 0b0000001#7, 0b010#3 => some (.mulhsu (rdF w) (rs1F w) (rs2F w))
  | 0b0000001#7, 0b011#3 => some (.mulhu (rdF w) (rs1F w) (rs2F w))
  | 0b0000001#7, 0b100#3 => some (.div (rdF w) (rs1F w) (rs2F w))
  | 0b0000001#7, 0b101#3 => some (.divu (rdF w) (rs1F w) (rs2F w))
  | 0b0000001#7, 0b110#3 => some (.rem (rdF w) (rs1F w) (rs2F w))
  | 0b0000001#7, 0b111#3 => some (.remu (rdF w) (rs1F w) (rs2F w))
  | 0b0010000#7, 0b010#3 => some (.sh1add (rdF w) (rs1F w) (rs2F w))
  | 0b0010000#7, 0b100#3 => some (.sh2add (rdF w) (rs1F w) (rs2F w))
  | 0b0010000#7, 0b110#3 => some (.sh3add (rdF w) (rs1F w) (rs2F w))
  | 0b0100000#7, 0b111#3 => some (.andn (rdF w) (rs1F w) (rs2F w))
  | 0b0100000#7, 0b110#3 => some (.orn (rdF w) (rs1F w) (rs2F w))
  | 0b0100000#7, 0b100#3 => some (.xnor (rdF w) (rs1F w) (rs2F w))
  | 0b0000101#7, 0b110#3 => some (.max (rdF w) (rs1F w) (rs2F w))
  | 0b0000101#7, 0b111#3 => some (.maxu (rdF w) (rs1F w) (rs2F w))
  | 0b0000101#7, 0b100#3 => some (.min (rdF w) (rs1F w) (rs2F w))
  | 0b0000101#7, 0b101#3 => some (.minu (rdF w) (rs1F w) (rs2F w))
  | 0b0000100#7, 0b100#3 => if rs2F w = 0#5 then some (.zext_h_rv32 (rdF w) (rs1F w)) else none
  | 0b0110000#7, 0b001#3 => some (.rol (rdF w) (rs1F w) (rs2F w))
  | 0b0110000#7, 0b101#3 => some (.ror (rdF w) (rs1F w) (rs2F w))
  | 0b0000101#7, 0b001#3 => some (.clmul (rdF w) (rs1F w) (rs2F w))
  | 0b0000101#7, 0b011#3 => some (.clmulh (rdF w) (rs1F w) (rs2F w))
  | 0b0000101#7, 0b010#3 => some (.clmulr (rdF w) (rs1F w) (rs2F w))
  | 0b0100100#7, 0b001#3 => some (.bclr (rdF w) (rs1F w) (rs2F w))
  | 0b0100100#7, 0b101#3 => some (.bext (rdF w) (rs1F w) (rs2F w))
  | 0b0110100#7, 0b001#3 => some (.binv (rdF w) (rs1F w) (rs2F w))
  | 0b0010100#7, 0b001#3 => some (.bset (rdF w) (rs1F w) (rs2F w))
  | 0b0000111#7, 0b101#3 => some (.czero_eqz (rdF w) (rs1F w) (rs2F w))
  | 0b0000111#7, 0b111#3 => some (.czero_nez (rdF w) (rs1F w) (rs2F w))
  | _, _ => none

/-- OP-32 (R183). -/
def parseOp32 (w : BitVec 32) : Option Instr :=
  match funct7F w, funct3F w with
  | 0b0000000#7, 0b000#3 => some (.addw (rdF w) (rs1F w) (rs2F w))
  | 0b0100000#7, 0b000#3 => some (.subw (rdF w) (rs1F w) (rs2F w))
  | 0b0000000#7, 0b001#3 => some (.sllw (rdF w) (rs1F w) (rs2F w))
  | 0b0000000#7, 0b101#3 => some (.srlw (rdF w) (rs1F w) (rs2F w))
  | 0b0100000#7, 0b101#3 => some (.sraw (rdF w) (rs1F w) (rs2F w))
  | 0b0000001#7, 0b000#3 => some (.mulw (rdF w) (rs1F w) (rs2F w))
  | 0b0000001#7, 0b100#3 => some (.divw (rdF w) (rs1F w) (rs2F w))
  | 0b0000001#7, 0b101#3 => some (.divuw (rdF w) (rs1F w) (rs2F w))
  | 0b0000001#7, 0b110#3 => some (.remw (rdF w) (rs1F w) (rs2F w))
  | 0b0000001#7, 0b111#3 => some (.remuw (rdF w) (rs1F w) (rs2F w))
  | 0b0000100#7, 0b000#3 => some (.add_uw (rdF w) (rs1F w) (rs2F w))
  | 0b0010000#7, 0b010#3 => some (.sh1add_uw (rdF w) (rs1F w) (rs2F w))
  | 0b0010000#7, 0b100#3 => some (.sh2add_uw (rdF w) (rs1F w) (rs2F w))
  | 0b0010000#7, 0b110#3 => some (.sh3add_uw (rdF w) (rs1F w) (rs2F w))
  | 0b0000100#7, 0b100#3 => if rs2F w = 0#5 then some (.zext_h_rv64 (rdF w) (rs1F w)) else none
  | 0b0110000#7, 0b001#3 => some (.rolw (rdF w) (rs1F w) (rs2F w))
  | 0b0110000#7, 0b101#3 => some (.rorw (rdF w) (rs1F w) (rs2F w))
  | _, _ => none

/-- MADD (R159). -/
def parseMadd (w : BitVec 32) : Option Instr :=
  match fmtF w with
  | 0b00#2 => some (.fmadd_s (rdF w) (rs1F w) (rs2F w) (rs3F w) (funct3F w))
  | 0b01#2 => some (.fmadd_d (rdF w) (rs1F w) (rs2F w) (rs3F w) (funct3F w))
  | 0b10#2 => some (.fmadd_h (rdF w) (rs1F w) (rs2F w) (rs3F w) (funct3F w))
  | _ => none

/-- MSUB (R159). -/
def parseMsub (w : BitVec 32) : Option Instr :=
  match fmtF w with
  | 0b00#2 => some (.fmsub_s (rdF w) (rs1F w) (rs2F w) (rs3F w) (funct3F w))
  | 0b01#2 => some (.fmsub_d (rdF w) (rs1F w) (rs2F w) (rs3F w) (funct3F w))
  | 0b10#2 => some (.fmsub_h (rdF w) (rs1F w) (rs2F w) (rs3F w) (funct3F w))
  | _ => none

/-- NMSUB (R159). -/
def parseNmsub (w : BitVec 32) : Option Instr :=
  match fmtF w with
  | 0b00#2 => some (.fnmsub_s (rdF w) (rs1F w) (rs2F w) (rs3F w) (funct3F w))
  | 0b01#2 => some (.fnmsub_d (rdF w) (rs1F w) (rs2F w) (rs3F w) (funct3F w))
  | 0b10#2 => some (.fnmsub_h (rdF w) (rs1F w) (rs2F w) (rs3F w) (funct3F w))
  | _ => none

/-- NMADD (R159). -/
def parseNmadd (w : BitVec 32) : Option Instr :=
  match fmtF w with
  | 0b00#2 => some (.fnmadd_s (rdF w) (rs1F w) (rs2F w) (rs3F w) (funct3F w))
  | 0b01#2 => some (.fnmadd_d (rdF w) (rs1F w) (rs2F w) (rs3F w) (funct3F w))
  | 0b10#2 => some (.fnmadd_h (rdF w) (rs1F w) (rs2F w) (rs3F w) (funct3F w))
  | _ => none

/-- OP-FP (R187). -/
def parseOpFp (w : BitVec 32) : Option Instr :=
  match funct7F w with
  | 0b0000000#7 => some (.fadd_s (rdF w) (rs1F w) (rs2F w) (funct3F w))
  | 0b0000100#7 => some (.fsub_s (rdF w) (rs1F w) (rs2F w) (funct3F w))
  | 0b0001000#7 => some (.fmul_s (rdF w) (rs1F w) (rs2F w) (funct3F w))
  | 0b0001100#7 => some (.fdiv_s (rdF w) (rs1F w) (rs2F w) (funct3F w))
  | 0b0101100#7 =>
    match rs2F w with
    | 0b00000#5 => some (.fsqrt_s (rdF w) (rs1F w) (funct3F w))
    | _ => none
  | 0b0010000#7 =>
    match funct3F w with
    | 0b000#3 => some (.fsgnj_s (rdF w) (rs1F w) (rs2F w))
    | 0b001#3 => some (.fsgnjn_s (rdF w) (rs1F w) (rs2F w))
    | 0b010#3 => some (.fsgnjx_s (rdF w) (rs1F w) (rs2F w))
    | _ => none
  | 0b0010100#7 =>
    match funct3F w with
    | 0b000#3 => some (.fmin_s (rdF w) (rs1F w) (rs2F w))
    | 0b001#3 => some (.fmax_s (rdF w) (rs1F w) (rs2F w))
    | _ => none
  | 0b1010000#7 =>
    match funct3F w with
    | 0b010#3 => some (.feq_s (rdF w) (rs1F w) (rs2F w))
    | 0b001#3 => some (.flt_s (rdF w) (rs1F w) (rs2F w))
    | 0b000#3 => some (.fle_s (rdF w) (rs1F w) (rs2F w))
    | _ => none
  | 0b1110000#7 =>
    match rs2F w, funct3F w with
    | 0b00000#5, 0b001#3 => some (.fclass_s (rdF w) (rs1F w))
    | 0b00000#5, 0b000#3 => some (.fmv_x_w (rdF w) (rs1F w))
    | _, _ => none
  | 0b1100000#7 =>
    match rs2F w with
    | 0b00000#5 => some (.fcvt_w_s (rdF w) (rs1F w) (funct3F w))
    | 0b00001#5 => some (.fcvt_wu_s (rdF w) (rs1F w) (funct3F w))
    | 0b00010#5 => some (.fcvt_l_s (rdF w) (rs1F w) (funct3F w))
    | 0b00011#5 => some (.fcvt_lu_s (rdF w) (rs1F w) (funct3F w))
    | _ => none
  | 0b1101000#7 =>
    match rs2F w with
    | 0b00000#5 => some (.fcvt_s_w (rdF w) (rs1F w) (funct3F w))
    | 0b00001#5 => some (.fcvt_s_wu (rdF w) (rs1F w) (funct3F w))
    | 0b00010#5 => some (.fcvt_s_l (rdF w) (rs1F w) (funct3F w))
    | 0b00011#5 => some (.fcvt_s_lu (rdF w) (rs1F w) (funct3F w))
    | _ => none
  | 0b1111000#7 =>
    match rs2F w, funct3F w with
    | 0b00000#5, 0b000#3 => some (.fmv_w_x (rdF w) (rs1F w))
    | _, _ => none
  | 0b0000001#7 => some (.fadd_d (rdF w) (rs1F w) (rs2F w) (funct3F w))
  | 0b0000101#7 => some (.fsub_d (rdF w) (rs1F w) (rs2F w) (funct3F w))
  | 0b0001001#7 => some (.fmul_d (rdF w) (rs1F w) (rs2F w) (funct3F w))
  | 0b0001101#7 => some (.fdiv_d (rdF w) (rs1F w) (rs2F w) (funct3F w))
  | 0b0101101#7 =>
    match rs2F w with
    | 0b00000#5 => some (.fsqrt_d (rdF w) (rs1F w) (funct3F w))
    | _ => none
  | 0b0010001#7 =>
    match funct3F w with
    | 0b000#3 => some (.fsgnj_d (rdF w) (rs1F w) (rs2F w))
    | 0b001#3 => some (.fsgnjn_d (rdF w) (rs1F w) (rs2F w))
    | 0b010#3 => some (.fsgnjx_d (rdF w) (rs1F w) (rs2F w))
    | _ => none
  | 0b0010101#7 =>
    match funct3F w with
    | 0b000#3 => some (.fmin_d (rdF w) (rs1F w) (rs2F w))
    | 0b001#3 => some (.fmax_d (rdF w) (rs1F w) (rs2F w))
    | _ => none
  | 0b1010001#7 =>
    match funct3F w with
    | 0b010#3 => some (.feq_d (rdF w) (rs1F w) (rs2F w))
    | 0b001#3 => some (.flt_d (rdF w) (rs1F w) (rs2F w))
    | 0b000#3 => some (.fle_d (rdF w) (rs1F w) (rs2F w))
    | _ => none
  | 0b1110001#7 =>
    match rs2F w, funct3F w with
    | 0b00000#5, 0b001#3 => some (.fclass_d (rdF w) (rs1F w))
    | 0b00000#5, 0b000#3 => some (.fmv_x_d (rdF w) (rs1F w))
    | _, _ => none
  | 0b1100001#7 =>
    match rs2F w with
    | 0b00000#5 => some (.fcvt_w_d (rdF w) (rs1F w) (funct3F w))
    | 0b00001#5 => some (.fcvt_wu_d (rdF w) (rs1F w) (funct3F w))
    | 0b00010#5 => some (.fcvt_l_d (rdF w) (rs1F w) (funct3F w))
    | 0b00011#5 => some (.fcvt_lu_d (rdF w) (rs1F w) (funct3F w))
    | _ => none
  | 0b1101001#7 =>
    match rs2F w with
    | 0b00000#5 => some (.fcvt_d_w (rdF w) (rs1F w) (funct3F w))
    | 0b00001#5 => some (.fcvt_d_wu (rdF w) (rs1F w) (funct3F w))
    | 0b00010#5 => some (.fcvt_d_l (rdF w) (rs1F w) (funct3F w))
    | 0b00011#5 => some (.fcvt_d_lu (rdF w) (rs1F w) (funct3F w))
    | _ => none
  | 0b0100000#7 =>
    match rs2F w with
    | 0b00001#5 => some (.fcvt_s_d (rdF w) (rs1F w) (funct3F w))
    | 0b00010#5 => some (.fcvt_s_h (rdF w) (rs1F w) (funct3F w))
    | _ => none
  | 0b0100001#7 =>
    match rs2F w with
    | 0b00000#5 => some (.fcvt_d_s (rdF w) (rs1F w) (funct3F w))
    | 0b00010#5 => some (.fcvt_d_h (rdF w) (rs1F w) (funct3F w))
    | _ => none
  | 0b1111001#7 =>
    match rs2F w, funct3F w with
    | 0b00000#5, 0b000#3 => some (.fmv_d_x (rdF w) (rs1F w))
    | _, _ => none
  | 0b0000010#7 => some (.fadd_h (rdF w) (rs1F w) (rs2F w) (funct3F w))
  | 0b0000110#7 => some (.fsub_h (rdF w) (rs1F w) (rs2F w) (funct3F w))
  | 0b0001010#7 => some (.fmul_h (rdF w) (rs1F w) (rs2F w) (funct3F w))
  | 0b0001110#7 => some (.fdiv_h (rdF w) (rs1F w) (rs2F w) (funct3F w))
  | 0b0101110#7 =>
    match rs2F w with
    | 0b00000#5 => some (.fsqrt_h (rdF w) (rs1F w) (funct3F w))
    | _ => none
  | 0b0010010#7 =>
    match funct3F w with
    | 0b000#3 => some (.fsgnj_h (rdF w) (rs1F w) (rs2F w))
    | 0b001#3 => some (.fsgnjn_h (rdF w) (rs1F w) (rs2F w))
    | 0b010#3 => some (.fsgnjx_h (rdF w) (rs1F w) (rs2F w))
    | _ => none
  | 0b0010110#7 =>
    match funct3F w with
    | 0b000#3 => some (.fmin_h (rdF w) (rs1F w) (rs2F w))
    | 0b001#3 => some (.fmax_h (rdF w) (rs1F w) (rs2F w))
    | _ => none
  | 0b1010010#7 =>
    match funct3F w with
    | 0b010#3 => some (.feq_h (rdF w) (rs1F w) (rs2F w))
    | 0b001#3 => some (.flt_h (rdF w) (rs1F w) (rs2F w))
    | 0b000#3 => some (.fle_h (rdF w) (rs1F w) (rs2F w))
    | _ => none
  | 0b1110010#7 =>
    match rs2F w, funct3F w with
    | 0b00000#5, 0b001#3 => some (.fclass_h (rdF w) (rs1F w))
    | 0b00000#5, 0b000#3 => some (.fmv_x_h (rdF w) (rs1F w))
    | _, _ => none
  | 0b1100010#7 =>
    match rs2F w with
    | 0b00000#5 => some (.fcvt_w_h (rdF w) (rs1F w) (funct3F w))
    | 0b00001#5 => some (.fcvt_wu_h (rdF w) (rs1F w) (funct3F w))
    | 0b00010#5 => some (.fcvt_l_h (rdF w) (rs1F w) (funct3F w))
    | 0b00011#5 => some (.fcvt_lu_h (rdF w) (rs1F w) (funct3F w))
    | _ => none
  | 0b1101010#7 =>
    match rs2F w with
    | 0b00000#5 => some (.fcvt_h_w (rdF w) (rs1F w) (funct3F w))
    | 0b00001#5 => some (.fcvt_h_wu (rdF w) (rs1F w) (funct3F w))
    | 0b00010#5 => some (.fcvt_h_l (rdF w) (rs1F w) (funct3F w))
    | 0b00011#5 => some (.fcvt_h_lu (rdF w) (rs1F w) (funct3F w))
    | _ => none
  | 0b0100010#7 =>
    match rs2F w with
    | 0b00000#5 => some (.fcvt_h_s (rdF w) (rs1F w) (funct3F w))
    | 0b00001#5 => some (.fcvt_h_d (rdF w) (rs1F w) (funct3F w))
    | 0b00011#5 => some (.fcvt_h_q (rdF w) (rs1F w) (funct3F w))
    | _ => none
  | 0b0100011#7 =>
    match rs2F w with
    | 0b00010#5 => some (.fcvt_q_h (rdF w) (rs1F w) (funct3F w))
    | _ => none
  | 0b1111010#7 =>
    match rs2F w, funct3F w with
    | 0b00000#5, 0b000#3 => some (.fmv_h_x (rdF w) (rs1F w))
    | _, _ => none
  | _ => none

/-- BRANCH (R184). -/
def parseBranch (w : BitVec 32) : Option Instr :=
  match funct3F w with
  | 0b000#3 => some (.beq (rs1F w) (rs2F w) (immBF w))
  | 0b001#3 => some (.bne (rs1F w) (rs2F w) (immBF w))
  | 0b100#3 => some (.blt (rs1F w) (rs2F w) (immBF w))
  | 0b101#3 => some (.bge (rs1F w) (rs2F w) (immBF w))
  | 0b110#3 => some (.bltu (rs1F w) (rs2F w) (immBF w))
  | 0b111#3 => some (.bgeu (rs1F w) (rs2F w) (immBF w))
  | _ => none

/-- SYSTEM (R185). -/
def parseSystem (w : BitVec 32) : Option Instr :=
  match funct3F w with
  | 0b000#3 =>
    match funct7F w with
    | 0b0001001#7 => if rdF w = 0#5 then some (.sfence_vma (rs1F w) (rs2F w)) else none
    | _ =>
      match w with
      | 0x00000073#32 => some .ecall
      | 0x00100073#32 => some .ebreak
      | 0x10200073#32 => some .sret
      | 0x30200073#32 => some .mret
      | 0x10500073#32 => some .wfi
      | _ => none
  | 0b001#3 => some (.csrrw (rdF w) (rs1F w) (immIF w))
  | 0b010#3 => some (.csrrs (rdF w) (rs1F w) (immIF w))
  | 0b011#3 => some (.csrrc (rdF w) (rs1F w) (immIF w))
  | 0b101#3 => some (.csrrwi (rdF w) (rs1F w) (immIF w))
  | 0b110#3 => some (.csrrsi (rdF w) (rs1F w) (immIF w))
  | 0b111#3 => some (.csrrci (rdF w) (rs1F w) (immIF w))
  | _ => none

/-- A 32-bit encoding by its major opcode (R180). -/
def parse32 (w : BitVec 32) : Option Instr :=
  match opcodeF w with
  | 0b0000011#7 => parseLoad w
  | 0b0000111#7 => parseLoadFp w
  | 0b0001111#7 => parseMiscMem w
  | 0b0010011#7 => parseOpImm w
  | 0b0010111#7 => some (.auipc (rdF w) (immUF w))
  | 0b0011011#7 => parseOpImm32 w
  | 0b0100011#7 => parseStore w
  | 0b0100111#7 => parseStoreFp w
  | 0b0101111#7 =>
    match funct3F w with
    | 0b010#3 => parseAmoW w
    | 0b011#3 => parseAmoD w
    | _ => none
  | 0b0110011#7 => parseOp w
  | 0b0110111#7 => some (.lui (rdF w) (immUF w))
  | 0b0111011#7 => parseOp32 w
  | 0b1000011#7 => parseMadd w
  | 0b1000111#7 => parseMsub w
  | 0b1001011#7 => parseNmsub w
  | 0b1001111#7 => parseNmadd w
  | 0b1010011#7 => parseOpFp w
  | 0b1100011#7 => parseBranch w
  | 0b1100111#7 =>
    match funct3F w with
    | 0b000#3 => some (.jalr (rdF w) (rs1F w) (immIF w))
    | _ => none
  | 0b1101111#7 => some (.jal (rdF w) (immJF w))
  | 0b1110011#7 => parseSystem w
  | _ => none

/-! ### The 16-bit quadrants (30_encoding.md R171 to R176) -/

/-- The Zcb loads and stores, quadrant 0 funct3 100 (R175). -/
def parseZcb (w : BitVec 16) : Option CInstr :=
  match cBit12F w, cBits11F w with
  | 0#1, 0b00#2 => some (.c_lbu (cLoF w) (cHiF w) (cUimmBF w))
  | 0#1, 0b01#2 =>
    match cBit6F w with
    | 0#1 => some (.c_lhu (cLoF w) (cHiF w) (cUimmHF w))
    | _ => some (.c_lh (cLoF w) (cHiF w) (cUimmHF w))
  | 0#1, 0b10#2 => some (.c_sb (cHiF w) (cLoF w) (cUimmBF w))
  | 0#1, 0b11#2 =>
    match cBit6F w with
    | 0#1 => some (.c_sh (cHiF w) (cLoF w) (cUimmHF w))
    | _ => none
  | _, _ => none

/-- Quadrant 0 (R171). -/
def parseQ0 (x : Xlen) (w : BitVec 16) : Option CInstr :=
  match cFunct3F w with
  | 0b000#3 => some (.c_addi4spn (cLoF w) (cImmCIWF w))
  | 0b001#3 => some (.c_fld (cLoF w) (cHiF w) (cUimm8F w))
  | 0b010#3 => some (.c_lw (cLoF w) (cHiF w) (cUimm4F w))
  | 0b011#3 =>
    match x with
    | .rv32 => some (.c_flw (cLoF w) (cHiF w) (cUimm4F w))
    | .rv64 => some (.c_ld (cLoF w) (cHiF w) (cUimm8F w))
  | 0b100#3 => parseZcb w
  | 0b101#3 => some (.c_fsd (cHiF w) (cLoF w) (cUimm8F w))
  | 0b110#3 => some (.c_sw (cHiF w) (cLoF w) (cUimm4F w))
  | _ =>
    match x with
    | .rv32 => some (.c_fsw (cHiF w) (cLoF w) (cUimm4F w))
    | .rv64 => some (.c_sd (cHiF w) (cLoF w) (cUimm8F w))

/-- The Zcb unary group of quadrant 1 (R175). -/
def parseZcbUnary (w : BitVec 16) : Option CInstr :=
  match cLoF w with
  | 0b000#3 => some (.c_zext_b (cHiF w))
  | 0b001#3 => some (.c_sext_b (cHiF w))
  | 0b010#3 => some (.c_zext_h (cHiF w))
  | 0b011#3 => some (.c_sext_h (cHiF w))
  | 0b100#3 => some (.c_zext_w (cHiF w))
  | 0b101#3 => some (.c_not (cHiF w))
  | _ => none

/-- Quadrant 1 funct3 100: shifts, `c.andi` and the CA group (R172). -/
def parseQ1Alu (w : BitVec 16) : Option CInstr :=
  match cBits11F w with
  | 0b00#2 => some (.c_srli (cHiF w) (cImm6F w))
  | 0b01#2 => some (.c_srai (cHiF w) (cImm6F w))
  | 0b10#2 => some (.c_andi (cHiF w) (cImm6F w))
  | _ =>
    match cBit12F w, cBits6F w with
    | 0#1, 0b00#2 => some (.c_sub (cHiF w) (cLoF w))
    | 0#1, 0b01#2 => some (.c_xor (cHiF w) (cLoF w))
    | 0#1, 0b10#2 => some (.c_or (cHiF w) (cLoF w))
    | 0#1, _ => some (.c_and (cHiF w) (cLoF w))
    | _, 0b00#2 => some (.c_subw (cHiF w) (cLoF w))
    | _, 0b01#2 => some (.c_addw (cHiF w) (cLoF w))
    | _, 0b10#2 => some (.c_mul (cHiF w) (cLoF w))
    | _, _ => parseZcbUnary w

/-- Quadrant 1 (R172). -/
def parseQ1 (x : Xlen) (w : BitVec 16) : Option CInstr :=
  match cFunct3F w with
  | 0b000#3 =>
    if cRdF w = 0#5 then some (.c_nop (cImm6F w)) else some (.c_addi (cRdF w) (cImm6F w))
  | 0b001#3 =>
    match x with
    | .rv32 => some (.c_jal (cImmJF w))
    | .rv64 => some (.c_addiw (cRdF w) (cImm6F w))
  | 0b010#3 => some (.c_li (cRdF w) (cImm6F w))
  | 0b011#3 =>
    if cRdF w = 2#5 then some (.c_addi16sp (cImm16F w)) else some (.c_lui (cRdF w) (cImm6F w))
  | 0b100#3 => parseQ1Alu w
  | 0b101#3 => some (.c_j (cImmJF w))
  | 0b110#3 => some (.c_beqz (cHiF w) (cImmBF w))
  | _ => some (.c_bnez (cHiF w) (cImmBF w))

/-- The `c.fsdsp` space under Zcmp or Zcmt (R176). -/
def parseZcmpt (w : BitVec 16) : Option CInstr :=
  match cBits12F w with
  | 0b000#3 =>
    if (cIndexF w).toNat < 32 then some (.cm_jt ((cIndexF w).extractLsb' 0 5))
    else some (.cm_jalt (cIndexF w))
  | 0b011#3 =>
    match cBits6F w with
    | 0b01#2 => some (.cm_mvsa01 (cHiF w) (cLoF w))
    | 0b11#2 => some (.cm_mva01s (cHiF w) (cLoF w))
    | _ => none
  | 0b110#3 =>
    match w.extractLsb' 8 2 with
    | 0b00#2 => some (.cm_push (cRlistF w) (cSpimmF w))
    | 0b10#2 => some (.cm_pop (cRlistF w) (cSpimmF w))
    | _ => none
  | 0b111#3 =>
    match w.extractLsb' 8 2 with
    | 0b00#2 => some (.cm_popretz (cRlistF w) (cSpimmF w))
    | 0b10#2 => some (.cm_popret (cRlistF w) (cSpimmF w))
    | _ => none
  | _ => none

/-- Quadrant 2 (R173); `zc` says that Zcmp or Zcmt is configured. -/
def parseQ2 (x : Xlen) (zc : Bool) (w : BitVec 16) : Option CInstr :=
  match cFunct3F w with
  | 0b000#3 => some (.c_slli (cRdF w) (cImm6F w))
  | 0b001#3 => some (.c_fldsp (cRdF w) (cUimmSP8F w))
  | 0b010#3 => some (.c_lwsp (cRdF w) (cUimmSP4F w))
  | 0b011#3 =>
    match x with
    | .rv32 => some (.c_flwsp (cRdF w) (cUimmSP4F w))
    | .rv64 => some (.c_ldsp (cRdF w) (cUimmSP8F w))
  | 0b100#3 =>
    match cBit12F w with
    | 0#1 => if cRs2F w = 0#5 then some (.c_jr (cRdF w)) else some (.c_mv (cRdF w) (cRs2F w))
    | _ =>
      if cRs2F w = 0#5 then
        if cRdF w = 0#5 then some .c_ebreak else some (.c_jalr (cRdF w))
      else some (.c_add (cRdF w) (cRs2F w))
  | 0b101#3 =>
    match zc with
    | true => parseZcmpt w
    | false => some (.c_fsdsp (cRs2F w) (cUimmSS8F w))
  | 0b110#3 => some (.c_swsp (cRs2F w) (cUimmSS4F w))
  | _ =>
    match x with
    | .rv32 => some (.c_fswsp (cRs2F w) (cUimmSS4F w))
    | .rv64 => some (.c_sdsp (cRs2F w) (cUimmSS8F w))

/-- A 16-bit encoding by its quadrant. -/
def parse16 (x : Xlen) (zc : Bool) (w : BitVec 16) : Option CInstr :=
  match cOpF w with
  | 0b00#2 => parseQ0 x w
  | 0b01#2 => parseQ1 x w
  | 0b10#2 => parseQ2 x zc w
  | _ => none

/-! ### Decoding -/

/-- Decoding of a 16-bit encoding, as `decode` does it. -/
def decode16 (c : Config) (w : BitVec 16) : Except Reject CInstr :=
  match parse16 c.xlen (c.extZcmp || c.extZcmt) w with
  | none => .error .unallocated
  | some i =>
    match (i.row c).rejected c with
    | some r => .error r
    | none => .ok i

/-- Decoding of a 32-bit encoding, as `decode` does it. -/
def decode32 (c : Config) (w : BitVec 32) : Except Reject Instr :=
  match parse32 w with
  | none => .error .unallocated
  | some i =>
    match (i.row c).rejected c with
    | some r => .error r
    | none => .ok i

/-- Decoding: the row the bits match, refused by name when the configuration does not have it
(00_scope.md R26 step 3, 30_encoding.md R190 to R195). -/
noncomputable def decode (c : Config) : Code → Except Reject Instr
  | .half w => (decode16 c w).map CInstr.toInstr
  | .word w => decode32 c w

/-- The length of the instruction a first parcel begins (30_encoding.md R150). -/
inductive ParcelKind where
  | half
  | word
  | long
deriving DecidableEq, Repr

/-- Bits [1:0] and [4:2] of the first parcel give the length (30_encoding.md R150). -/
def parcelKind (p : BitVec 16) : ParcelKind :=
  if p.extractLsb' 0 2 ≠ 0b11#2 then .half
  else if p.extractLsb' 2 3 ≠ 0b111#3 then .word
  else .long

/-- A little-endian parcel (20_memory.md R107). -/
def parcel (lo hi : Byte) : BitVec 16 := hi ++ lo

/-- The instruction at the head of a byte stream, with the bytes after it. -/
noncomputable def decodeBytes (c : Config) : List Byte → Except Reject (Instr × List Byte)
  | b0 :: b1 :: rest =>
    match parcelKind (parcel b0 b1) with
    | .half => (decode c (.half (parcel b0 b1))).map (fun i => (i, rest))
    | .word =>
      match rest with
      | b2 :: b3 :: rest' =>
        (decode c (.word (parcel b2 b3 ++ parcel b0 b1))).map (fun i => (i, rest'))
      | _ => .error .truncated
    | .long => .error .longFormat
  | _ => .error .truncated

/-- The low `n` bytes of a number, least significant first: how instruction bits lie in memory
(20_memory.md R107). -/
def instrBytes : Nat → Nat → List Byte
  | 0, _ => []
  | n + 1, w => BitVec.ofNat 8 w :: instrBytes n (w / 256)

/-- The configurations the table's rows are shown under, in this order: no one configuration has
every row (00_scope.md R2; log 22). Those with Zcmp and Zcmt come first, so that a word of the shared
space of 30_encoding.md R176 shows the eight rows of Zcmp and Zcmt where it can. -/
def tableConfigs : List Config := [.rv64Zc, .default, .rv32Zc, .rv32]

/-- The first configuration of the list that decodes the bytes. -/
noncomputable def firstDecoding : List Config → List Byte → Option (Config × Instr)
  | [], _ => none
  | c :: l, bs =>
    match decodeBytes c bs with
    | .ok (i, _) => some (c, i)
    | .error _ => firstDecoding l bs

/-- The bytes of an opcode-table word, zero above its bits, as long as the longest instruction. -/
def tableBytes (nbits w : Nat) : List Byte := instrBytes 4 (w % 2 ^ nbits)

/-- The instruction the decoder reads from the bits of an opcode-table row (log 22). -/
noncomputable def decodeTableWord (nbits w : Nat) : Option Instr :=
  (firstDecoding tableConfigs (tableBytes nbits w)).map Prod.snd

end Sys2Proof
end

