-- ==== Sys2Proof/Machine/State.lean ====
section
/-! DEFINITION. The state of the machine (10_state.md; 60_exceptions.md R770 for the platform): plain data, every
register with a value at reset. INVENTORY.md lists each field with its rule and its reset value. -/

namespace Sys2Proof.Machine

open Sys2Proof

/-- A privilege mode (10_state.md R50). -/
inductive Priv where
  | u
  | s
  | m
deriving DecidableEq, Repr

/-- The writable fields of `mstatus` (10_state.md R54). The read-only and computed fields (SD, UXL, SXL, UBE, SBE, MBE,
VS, XS) and the WPRI bits, which read 0 and ignore writes (R74), are in the views of Machine/Csr.lean. -/
structure MStatus where
  sie : Bool
  mie : Bool
  spie : Bool
  mpie : Bool
  /-- `SPP`: `false` is U, `true` is S. -/
  spp : Bool
  mpp : Priv
  /-- `FS`: 0 Off, 1 Initial, 2 Clean, 3 Dirty. -/
  fs : BitVec 2
  mprv : Bool
  sum : Bool
  mxr : Bool
  tvm : Bool
  tw : Bool
  tsr : Bool
deriving DecidableEq, Repr

/-- The control and status registers that have storage of their own (10_state.md R53). -/
structure Csrs where
  mstatus : MStatus
  medeleg : Word
  mideleg : Word
  mie : Word
  /-- `mip.SSIP`. -/
  ssip : Bool
  /-- `mip.STIP`. -/
  stip : Bool
  /-- The written bit of `mip.SEIP` (R61). -/
  seip : Bool
  mtvec : Word
  stvec : Word
  mscratch : Word
  sscratch : Word
  mepc : Word
  sepc : Word
  mcause : Word
  scause : Word
  mtval : Word
  stval : Word
  satp : Word
  mcounteren : Word
  scounteren : Word
  mcountinhibit : Word
  /-- All 64 bits; on XLEN = 32 two CSRs show the halves (R80). -/
  mcycle : Word
  /-- All 64 bits. -/
  minstret : Word
  jvt : Word
deriving DecidableEq, Repr

/-- The registers of the core-local interruptor (60_exceptions.md R770). With PLATFORM = none, `mtime` is the time
counter input. -/
structure Clint where
  mtime : Word
  /-- One per hart. -/
  mtimecmp : List Word
  /-- Bit 0 of `msip[h]`, one per hart. -/
  msip : List Bool
deriving DecidableEq, Repr

/-- The interrupt inputs of the hart (10_state.md R86). `mtip` and `msip` are read only with PLATFORM = none. -/
structure Lines where
  meip : Bool
  seip : Bool
  mtip : Bool
  msip : Bool
deriving DecidableEq, Repr

/-- The machine: one hart and its platform. -/
structure State where
  /-- The parameters; no step changes them. -/
  cfg : Config
  /-- `x0` to `x31` (R40). Entry 0 is never read. -/
  x : Vector Word 32
  pc : Word
  /-- `f0` to `f31` (R47); bits above FLEN are zero. -/
  f : Vector Word 32
  fflags : BitVec 5
  frm : BitVec 3
  priv : Priv
  csr : Csrs
  /-- The load reservation: effective address and size (R85). -/
  resv : Option (Word × Nat)
  /-- The hart waits in `wfi` (R87). -/
  waiting : Bool
  /-- Main memory by physical address: addresses strictly rising, no zero byte listed (R88; log 4). -/
  mem : List Host.Cell
  clint : Clint
  lines : Lines
  /-- The model's own: the inputs of the coming steps; when empty the inputs keep their level (log 5). -/
  env : List Lines
  /-- The model's own: the counter free values are drawn at (log 6). -/
  draws : Nat
deriving DecidableEq, Repr

/-- A step of this machine never stops in a fault: every failure the spec names is a trap, a next state
(60_exceptions.md R720 to R744). So there is no constructor and nothing raises one; safe. -/
inductive Fault where
deriving DecidableEq, Repr

/-- Why the machine has no next state. -/
inductive Refusal where
  /-- Raised by `exec` for an instruction without a meaning; safe. No instruction of the table is without one. -/
  | notModelled (mnemonic : String)
  /-- Raised by `step` when the configuration breaks 00_scope.md R12 or R17 or part 2 of
  93_implementation_defined.md, which says to refuse it; safe. -/
  | illFormedConfig
deriving DecidableEq, Repr

/-- What an instruction or a step answers. -/
abbrev Result := Host.Outcome State Fault Refusal

/-- `mstatus` after reset (10_state.md R95). `MIE`, `MPRV` and `FS` are the spec's; the others are unspecified there:
DESIGN CHOICE, 0, and for `MPP` the least privileged configured mode (log 3). -/
def MStatus.reset (c : Config) : MStatus :=
  { sie := false, mie := false, spie := false, mpie := false, spp := false,
    mpp := if c.extU then .u else .m, fs := 0, mprv := false, sum := false, mxr := false,
    tvm := false, tw := false, tsr := false }

/-- The CSRs after reset (10_state.md R95). `mcause`, `mie`, the `mip` bits, `satp.MODE`, `mcounteren`, `scounteren`,
`mcountinhibit` are the spec's; the others are unspecified there: DESIGN CHOICE, 0 (log 3). -/
def Csrs.reset (c : Config) : Csrs :=
  { mstatus := .reset c, medeleg := 0, mideleg := 0, mie := 0, ssip := false, stip := false,
    seip := false, mtvec := 0, stvec := 0, mscratch := 0, sscratch := 0, mepc := 0, sepc := 0,
    mcause := 0, scause := 0, mtval := 0, stval := 0, satp := 0, mcounteren := 0, scounteren := 0,
    mcountinhibit := 0, mcycle := 0, minstret := 0, jvt := 0 }

/-- The CLINT after reset (60_exceptions.md R770): `msip` is 0; `mtime` and `mtimecmp` are unspecified: DESIGN CHOICE,
0 (log 3). -/
def Clint.reset (c : Config) : Clint :=
  { mtime := 0, mtimecmp := List.replicate c.harts 0, msip := List.replicate c.harts false }

/-- No input is high (log 5). -/
def Lines.low : Lines := { meip := false, seip := false, mtip := false, msip := false }

/-- The state after reset under a configuration (10_state.md R95, 70_reset_and_hazards.md R790 to R792). The registers
the spec leaves unspecified hold 0: DESIGN CHOICE (log 3). -/
def State.resetWith (c : Config) : State :=
  { cfg := c, x := Vector.replicate 32 0, pc := c.resetPc, f := Vector.replicate 32 0, fflags := 0,
    frm := 0, priv := .m, csr := .reset c, resv := none, waiting := false, mem := [],
    clint := .reset c, lines := .low, env := [], draws := 0 }

/-- The machine right after reset, under the default configuration (log 1). -/
def State.reset : State := State.resetWith Config.default

end Sys2Proof.Machine
end

