-- ==== Sys2Proof/Machine/Operands.lean ====
section
/-! DEFINITION. Operands: values of the configured width, registers, immediates, the program counter and what ends an
instruction (00_scope.md R21 to R23, 10_state.md R40 to R48, 30_encoding.md R160 to R168). -/

namespace Sys2Proof

namespace Config

/-- An XLEN-bit value as the model holds it: on XLEN = 32 the low 32 bits, zero-extended (log 2). -/
def norm (c : Config) (w : Word) : Word :=
  match c.xlen with
  | .rv32 => (w.setWidth 32).setWidth 64
  | .rv64 => w

/-- `signed(v)` of an XLEN-bit value, as a 64-bit two's complement value (00_scope.md R21). -/
def sx (c : Config) (w : Word) : Word :=
  match c.xlen with
  | .rv32 => (w.setWidth 32).signExtend 64
  | .rv64 => w

/-- The low `log2(XLEN)` bits of a register used as a shift amount or bit index (40_rv_i.md R234, 46_b.md R588). -/
def shiftAmount (c : Config) (w : Word) : Nat :=
  match c.xlen with
  | .rv32 => (w.setWidth 5).toNat
  | .rv64 => (w.setWidth 6).toNat

/-- FLEN (00_scope.md R11). -/
def flen (c : Config) : Nat := if c.extD then 64 else if c.extF then 32 else 0

/-- A FLEN-bit value as the model holds it. -/
def fnorm (c : Config) (w : Word) : Word := if c.extD then w else (w.setWidth 32).setWidth 64

/-- An instruction address must be a multiple of IALIGN/8 (00_scope.md R16). -/
def aligned (c : Config) (t : Word) : Bool :=
  if c.extC then t.extractLsb' 0 1 == 0#1 else t.extractLsb' 0 2 == 0#2

end Config

/-! ### Immediates -/

/-- A 12-bit immediate, sign-extended (30_encoding.md R160, R161). -/
def imm12 (i : BitVec 12) : Word := i.signExtend 64

/-- A branch offset from `imm[12:1]` (30_encoding.md R163). -/
def immB (i : BitVec 12) : Word := (i ++ 0#1).signExtend 64

/-- A `jal` offset from `imm[20:1]` (30_encoding.md R164). -/
def immJ (i : BitVec 20) : Word := (i ++ 0#1).signExtend 64

/-- `imm_U` (30_encoding.md R165). -/
def immU (i : BitVec 20) : Word := (i ++ 0#12).signExtend 64

/-- A 6-bit compressed immediate, sign-extended (45_c.md R482). -/
def imm6 (i : BitVec 6) : Word := i.signExtend 64

/-- `nzimm` of `c.addi16sp` from `nzimm[9:4]` (45_c.md R504). -/
def imm16sp (i : BitVec 6) : Word := (i ++ 0#4).signExtend 64

/-- `nzimm` of `c.lui` from `nzimm[17:12]` (45_c.md R505). -/
def immCLui (i : BitVec 6) : Word := (i ++ 0#12).signExtend 64

/-- The offset of `c.j` and `c.jal` from `offset[11:1]` (45_c.md R501, R515). -/
def immCJ (i : BitVec 11) : Word := (i ++ 0#1).signExtend 64

/-- The offset of `c.beqz` and `c.bnez` from `offset[8:1]` (45_c.md R516). -/
def immCB (i : BitVec 8) : Word := (i ++ 0#1).signExtend 64

/-- A zero-extended compressed offset scaled by 4 (45_c.md R482). -/
def uimm4 {n : Nat} (i : BitVec n) : Word := i.setWidth 64 <<< 2

/-- A zero-extended compressed offset scaled by 8 (45_c.md R482). -/
def uimm8 {n : Nat} (i : BitVec n) : Word := i.setWidth 64 <<< 3

/-- The register a 3-bit field names (10_state.md R42 (d)). -/
def CReg.reg (r : CReg) : Reg := 0b01#2 ++ r

/-- The saved register a 3-bit field of `cm.mvsa01` names: `{r[2:1] > 0, r[2:1] == 0, r[2:0]}` (48_zc.md R697). -/
def sreg (r : BitVec 3) : Reg :=
  if r.extractLsb' 1 2 = 0#2 then 0b01#2 ++ r else 0b10#2 ++ r

namespace Machine

/-! ### Registers -/

namespace State

/-- `x[r]`; `x0` reads as zero (10_state.md R40). -/
def rx (s : State) (r : Reg) : Word := if r = 0#5 then 0 else s.x[r.toNat]'r.isLt

/-- `x[r] <- v`; a write to `x0` is discarded (10_state.md R40). -/
def wx (s : State) (r : Reg) (v : Word) : State :=
  if r = 0#5 then s else { s with x := s.x.set r.toNat (s.cfg.norm v) r.isLt }

/-- `f[r]` (10_state.md R47). -/
def rf (s : State) (r : Reg) : Word := s.f[r.toNat]'r.isLt

/-- `f[r] <- v`, which makes the floating-point state dirty (10_state.md R47, 44_fd.md R395). -/
def wf (s : State) (r : Reg) (v : Word) : State :=
  { s with
    f := s.f.set r.toNat (s.cfg.fnorm v) r.isLt
    csr := { s.csr with mstatus := { s.csr.mstatus with fs := 3 } } }

/-- `ra` (10_state.md R42 (a)). -/
abbrev ra : Reg := 1

/-- `sp` (10_state.md R42 (b)). -/
abbrev sp : Reg := 2

/-- The address after an instruction of `n` bytes (10_state.md R45). -/
def after (s : State) (n : Nat) : Word := s.cfg.norm (s.pc + BitVec.ofNat 64 n)

/-- `base + offset` modulo 2^XLEN (20_memory.md R100). -/
def ea (s : State) (base : Reg) (offset : Word) : Word := s.cfg.norm (s.rx base + offset)

/-- `minstret` counts one retired instruction unless `mcountinhibit.IR` (10_state.md R71, R80). -/
def count (s : State) : State :=
  if s.csr.mcountinhibit.getLsbD 2 then s
  else { s with csr := { s.csr with minstret := s.csr.minstret + 1 } }

end State

/-! ### Ends of an instruction -/

/-- The instruction of `n` bytes completes: `pc` moves past it and it retires (10_state.md R45, R80). -/
def retire (n : Nat) (s : State) : Result := .next { s.count with pc := s.after n }

/-- The instruction completes with a jump to `t` and retires. -/
def retireAt (t : Word) (s : State) : Result := .next { s.count with pc := t }

end Machine

end Sys2Proof
end

