-- ==== Sys2Proof/Machine/Ops.lean ====
section
/-! DEFINITION. The shared operations: memory, the platform's registers, translation, the accesses of an instruction
(20_memory.md), taking an exception or an interrupt, and returning from one (60_exceptions.md). -/

namespace Sys2Proof.Machine

open Sys2Proof

/-! ### Bytes of main memory -/

/-- What a byte no entry lists reads as. DESIGN CHOICE (log 4): the spec leaves bytes outside the loaded image open. -/
def unlistedByte : Byte := 0

/-- The byte at a physical address. -/
def memGet : List Host.Cell → Nat → Byte
  | [], _ => unlistedByte
  | (b, w) :: l, a => if a = b then w else memGet l a

/-- The list with an entry added before the first that is not below it. -/
def memInsert : List Host.Cell → Nat → Byte → List Host.Cell
  | [], a, v => [(a, v)]
  | (b, w) :: l, a, v => if a ≤ b then (a, v) :: (b, w) :: l else (b, w) :: memInsert l a v

/-- Replaces the byte at a physical address; the canonical form is kept (`Memory.wf`). -/
def memSet (m : List Host.Cell) (a : Nat) (v : Byte) : List Host.Cell :=
  let rest := m.filter (fun c => c.1 != a)
  if v = unlistedByte then rest else memInsert rest a v

/-- The `n` bytes at a physical address as one value, the lowest address least significant (20_memory.md R106). -/
def memRead (m : List Host.Cell) (a : Nat) : Nat → Word
  | 0 => 0
  | n + 1 => memRead m (a + 1) n <<< 8 ||| (memGet m a).setWidth 64

/-- Replaces the `n` bytes at a physical address (20_memory.md R106). -/
def memWrite (m : List Host.Cell) (a : Nat) : Nat → Word → List Host.Cell
  | 0, _ => m
  | n + 1, v => memWrite (memSet m a (v.setWidth 8)) (a + 1) n (v >>> 8)

/-- The canonical form: addresses strictly rising, no entry equal to what an unlisted byte reads as. -/
abbrev Memory.wf (m : List Host.Cell) : Prop :=
  m.Pairwise (fun a b => a.1 < b.1) ∧ ∀ c ∈ m, c.2 ≠ unlistedByte

/-! ### Kinds of access -/

/-- The exceptions of 60_exceptions.md R720. -/
inductive Exc where
  | instructionAddressMisaligned
  | instructionAccessFault
  | illegalInstruction
  | breakpoint
  | loadAddressMisaligned
  | loadAccessFault
  | storeAmoAddressMisaligned
  | storeAmoAccessFault
  | ecallFromU
  | ecallFromS
  | ecallFromM
  | instructionPageFault
  | loadPageFault
  | storeAmoPageFault
deriving DecidableEq, Repr

/-- The cause code (60_exceptions.md R720). -/
def Exc.code : Exc → Nat
  | .instructionAddressMisaligned => 0
  | .instructionAccessFault => 1
  | .illegalInstruction => 2
  | .breakpoint => 3
  | .loadAddressMisaligned => 4
  | .loadAccessFault => 5
  | .storeAmoAddressMisaligned => 6
  | .storeAmoAccessFault => 7
  | .ecallFromU => 8
  | .ecallFromS => 9
  | .ecallFromM => 11
  | .instructionPageFault => 12
  | .loadPageFault => 13
  | .storeAmoPageFault => 15

/-- The three families of exceptions an access can raise (20_memory.md R112). -/
inductive AccessClass where
  | fetch
  | load
  | store
deriving DecidableEq, Repr

/-- An AMO, an `sc` and a push raise the store exceptions, an `lr` and a pop the load exceptions, the table read of Zcmt
the fetch exceptions (20_memory.md R112). -/
def accessClass : Access → AccessClass
  | .fetch | .table => .fetch
  | .load | .lr | .pop => .load
  | .store | .sc | .amo | .push => .store

/-- Address-misaligned; a fetch is never misaligned (20_memory.md R115), so its case is not reached. -/
def misalignedExc (k : Access) : Exc :=
  match accessClass k with
  | .fetch => .instructionAddressMisaligned
  | .load => .loadAddressMisaligned
  | .store => .storeAmoAddressMisaligned

/-- Access fault. -/
def accessExc (k : Access) : Exc :=
  match accessClass k with
  | .fetch => .instructionAccessFault
  | .load => .loadAccessFault
  | .store => .storeAmoAccessFault

/-- Page fault. -/
def pageExc (k : Access) : Exc :=
  match accessClass k with
  | .fetch => .instructionPageFault
  | .load => .loadPageFault
  | .store => .storeAmoPageFault

/-- What the region must permit (20_memory.md R105; for a push or pop also 48_zc.md R691 (d)). An `sc` needs W, as R105
says, and R as well, as 92_eei_decisions.md D46 says of 43_a.md R351: DEDUCED (log 28). -/
def permits (k : Access) (r : Region) : Bool :=
  match k with
  | .fetch | .table => r.x
  | .load => r.r
  | .store => r.w
  | .lr => r.r && r.atomics == .amoLrsc
  | .sc => r.r && r.w && r.atomics == .amoLrsc
  | .amo => r.r && r.w && r.atomics != .none
  | .pop => r.r && r.kind == .main
  | .push => r.w && r.kind == .main

/-- Whether a misaligned access of this kind is ever split: not for `lr`, `sc` and the AMOs (20_memory.md R111). -/
def splits : Access → Bool
  | .load | .store | .pop | .push => true
  | .fetch | .table | .lr | .sc | .amo => false

/-! ### The registers of the CLINT (60_exceptions.md R770) -/

/-- Which bytes of a 64-bit register an access touches. -/
inductive Part where
  | lo
  | hi
  | both
deriving DecidableEq, Repr

/-- The register an access to the block names. -/
inductive ClintReg where
  | msip (h : Nat)
  | mtimecmp (h : Nat) (p : Part)
  | mtime (p : Part)
deriving DecidableEq, Repr

/-- The 64-bit register at an offset. -/
def clintReg64 (c : Config) (off : Nat) (p : Part) : Option ClintReg :=
  if 0x4000 ≤ off ∧ off < 0x4000 + 8 * c.harts then some (.mtimecmp ((off - 0x4000) / 8) p)
  else if 0xBFF8 ≤ off ∧ off < 0xC000 then some (.mtime p)
  else none

/-- The register that `n` bytes at an offset are: aligned 4-byte accesses, and on XLEN = 64 aligned 8-byte accesses to
the 64-bit registers; every other access faults. -/
def clintReg (c : Config) (off n : Nat) : Option ClintReg :=
  if n = 4 ∧ off % 4 = 0 then
    if off < 4 * c.harts then some (.msip (off / 4))
    else clintReg64 c off (if off % 8 = 0 then .lo else .hi)
  else if n = 8 ∧ off % 8 = 0 ∧ c.xlen = .rv64 then clintReg64 c off .both
  else none

/-- The part of a 64-bit register an access reads. -/
def partGet (w : Word) : Part → Word
  | .lo => w.extractLsb' 0 32 |>.setWidth 64
  | .hi => w.extractLsb' 32 32 |>.setWidth 64
  | .both => w

/-- A 64-bit register with the part an access writes replaced. -/
def partSet (w v : Word) : Part → Word
  | .lo => w.extractLsb' 32 32 ++ v.extractLsb' 0 32
  | .hi => v.extractLsb' 0 32 ++ w.extractLsb' 0 32
  | .both => v

/-- The value of a register of the block. -/
def Clint.get (c : Clint) : ClintReg → Word
  | .msip h => if (c.msip[h]?).getD false then 1 else 0
  | .mtimecmp h p => partGet ((c.mtimecmp[h]?).getD 0) p
  | .mtime p => partGet c.mtime p

/-- A write to a register of the block; of `msip` only bit 0 is kept. -/
def Clint.put (c : Clint) (v : Word) : ClintReg → Clint
  | .msip h => { c with msip := c.msip.set h (v.getLsbD 0) }
  | .mtimecmp h p => { c with mtimecmp := c.mtimecmp.set h (partSet ((c.mtimecmp[h]?).getD 0) v p) }
  | .mtime p => { c with mtime := partSet c.mtime v p }

/-! ### Physical accesses -/

/-- The physical address is in the CLINT block. -/
def inClint (c : Config) (pa : Nat) : Bool :=
  c.platform == .clint && (c.clintBase ≤ pa : Bool) && (pa < c.clintBase + Config.clintSize : Bool)

/-- The one region that holds all `n` bytes (20_memory.md R105). -/
def findRegion (c : Config) (pa n : Nat) : Option Region :=
  c.regions.find? (fun r => r.base ≤ pa && pa + n ≤ r.base + r.size)

/-- The region check of 20_memory.md R105, and for the CLINT block the map of 60_exceptions.md R770. -/
def regionOk (c : Config) (k : Access) (pa n : Nat) : Bool :=
  match findRegion c pa n with
  | none => false
  | some r => permits k r && (!inClint c pa || (clintReg c (pa - c.clintBase) n).isSome)

/-- The `n` bytes are ordinary memory, not a device. -/
def isMain (c : Config) (pa n : Nat) : Bool :=
  match findRegion c pa n with
  | none => false
  | some r => r.kind == .main

/-- The byte is in a `main` region whose misaligned accesses are performed byte by byte (20_memory.md R111). -/
def splitOk (c : Config) (pa : Nat) : Bool :=
  match findRegion c pa 1 with
  | none => false
  | some r => r.kind == .main && r.misalignedOk

/-- The value a device answers, byte by byte (20_memory.md R114; log 12). -/
def deviceRead (q : DeviceRead) : Nat → Word
  | 0 => 0
  | n + 1 => deviceRead { q with pa := q.pa + 1 } n <<< 8 ||| (Config.deviceByte q).setWidth 64

/-- A physical read that passed the region check. -/
def State.physRead (s : State) (k : Access) (va : Word) (level : Option Nat) (pa n : Nat) : Word :=
  if inClint s.cfg pa then
    match clintReg s.cfg (pa - s.cfg.clintBase) n with
    | some r => s.clint.get r
    | none => 0
  else if isMain s.cfg pa n then memRead s.mem pa n
  else deviceRead { draw := s.draws, kind := k, va := va, level := level, pa := pa } n

/-- A physical write that passed the region check. A write to a device other than the CLINT changes no state of this
machine (log 12). -/
def State.physWrite (s : State) (pa n : Nat) (v : Word) : State :=
  if inClint s.cfg pa then
    match clintReg s.cfg (pa - s.cfg.clintBase) n with
    | some r => { s with clint := s.clint.put v r }
    | none => s
  else if isMain s.cfg pa n then { s with mem := memWrite s.mem pa n v }
  else s

/-! ### Address translation (20_memory.md R120 to R127) -/

/-- The privilege an access is checked in: `priv` for a fetch, `MPP` for data in M-mode under `MPRV`
(20_memory.md R103). -/
def State.accessPriv (s : State) (k : Access) : Priv :=
  match accessClass k with
  | .fetch => s.priv
  | .load | .store => if s.priv = .m ∧ s.csr.mstatus.mprv then s.csr.mstatus.mpp else s.priv

/-- `satp.MODE` is Sv32 or Sv39 (10_state.md R69). -/
def State.paged (s : State) : Bool :=
  match s.cfg.xlen with
  | .rv32 => s.csr.satp.extractLsb' 31 1 == 1#1
  | .rv64 => s.csr.satp.extractLsb' 60 4 == 8#4

/-- `satp.PPN` (10_state.md R69). -/
def State.rootPpn (s : State) : Nat :=
  match s.cfg.xlen with
  | .rv32 => (s.csr.satp.extractLsb' 0 22).toNat
  | .rv64 => (s.csr.satp.extractLsb' 0 44).toNat

/-- LEVELS (20_memory.md R123, R124). -/
def walkLevels : Xlen → Nat
  | .rv32 => 2
  | .rv64 => 3

/-- The width of one `VPN` field (20_memory.md R123, R124). -/
def vpnBits : Xlen → Nat
  | .rv32 => 10
  | .rv64 => 9

/-- `VPN[i]` of a virtual address. -/
def vpn (x : Xlen) (va : Word) (i : Nat) : Nat := va.toNat / 2 ^ (12 + vpnBits x * i) % 2 ^ vpnBits x

/-- Bits [63:39] of an Sv39 address equal bit 38 (20_memory.md R124). -/
def vaCanonical (x : Xlen) (va : Word) : Bool :=
  match x with
  | .rv32 => true
  | .rv64 => (va.setWidth 39).signExtend 64 == va

/-- The physical page number of an entry. -/
def ptePpn (x : Xlen) (pte : Word) : Nat :=
  match x with
  | .rv32 => (pte.extractLsb' 10 22).toNat
  | .rv64 => (pte.extractLsb' 10 44).toNat

/-- A reserved bit of the entry is set (20_memory.md R124). -/
def pteReserved (x : Xlen) (pte : Word) : Bool :=
  match x with
  | .rv32 => false
  | .rv64 => pte.extractLsb' 54 10 != 0#10

/-- The valid bit of a page-table entry. -/
def pteV (pte : Word) : Bool := pte.getLsbD 0
/-- The readable bit. -/
def pteR (pte : Word) : Bool := pte.getLsbD 1
/-- The writable bit. -/
def pteW (pte : Word) : Bool := pte.getLsbD 2
/-- The executable bit. -/
def pteX (pte : Word) : Bool := pte.getLsbD 3
/-- The user bit. -/
def pteU (pte : Word) : Bool := pte.getLsbD 4
/-- The accessed bit. -/
def pteA (pte : Word) : Bool := pte.getLsbD 6
/-- The dirty bit. -/
def pteD (pte : Word) : Bool := pte.getLsbD 7

/-- The leaf permission check (20_memory.md R126). -/
def State.leafOk (s : State) (k : Access) (pte : Word) : Bool :=
  (match accessClass k with
   | .fetch => pteX pte
   | .load => pteR pte || (pteX pte && s.csr.mstatus.mxr)
   | .store => pteW pte) &&
  (match s.accessPriv k with
   | .u => pteU pte
   | .s => !pteU pte || (s.csr.mstatus.sum && accessClass k != .fetch)
   | .m => true)

/-- The accessed and dirty check (20_memory.md R127). -/
def accessedOk (k : Access) (pte : Word) : Bool := pteA pte && (accessClass k != .store || pteD pte)

/-- The physical address a leaf at level `i` gives, or the page fault of a misaligned superpage, of the permission check
or of the accessed and dirty check (20_memory.md R125 (5) to (8)). -/
def State.leaf (s : State) (k : Access) (va : Word) (i : Nat) (pte : Word) : Except Exc Nat :=
  let x := s.cfg.xlen
  let low := 2 ^ (vpnBits x * i)
  if !s.leafOk k pte then .error (pageExc k)
  else if ptePpn x pte % low ≠ 0 then .error (pageExc k)
  else if !accessedOk k pte then .error (pageExc k)
  else .ok (ptePpn x pte / low * (low * 4096) + va.toNat % (low * 4096))

/-- The walk of 20_memory.md R125 with `left` levels still to read and the next table at page `ppn`. -/
def State.walk (s : State) (k : Access) (va : Word) : (left ppn : Nat) → Except Exc Nat
  | 0, _ => .error (pageExc k)
  | i + 1, ppn =>
    let x := s.cfg.xlen
    let addr := ppn * 4096 + vpn x va i * x.bytes
    if regionOk s.cfg .load addr x.bytes then
      let pte := s.physRead k va (some i) addr x.bytes
      if !pteV pte || (!pteR pte && pteW pte) || pteReserved x pte then .error (pageExc k)
      else if pteR pte || pteX pte then s.leaf k va i pte
      else if pteD pte || pteA pte || pteU pte then .error (pageExc k)
      else s.walk k va i (ptePpn x pte)
    else .error (accessExc k)

/-- The physical address of an access (20_memory.md R122, R125). -/
def State.translate (s : State) (k : Access) (va : Word) : Except Exc Nat :=
  if s.paged ∧ s.accessPriv k ≠ .m then
    if vaCanonical s.cfg.xlen va then s.walk k va (walkLevels s.cfg.xlen) s.rootPpn
    else .error (pageExc k)
  else .ok va.toNat

/-! ### The accesses of an instruction (20_memory.md R101) -/

/-- The physical address of `n` bytes that passed translation and the region check. -/
def State.physAddr (s : State) (k : Access) (va : Word) (n : Nat) : Except Exc Nat :=
  match s.translate k va with
  | .error e => .error e
  | .ok pa => if regionOk s.cfg k pa n then .ok pa else .error (accessExc k)

/-- The same with the alignment check first (20_memory.md R101, 60_exceptions.md R735). -/
def State.alignedAddr (s : State) (k : Access) (va : Word) (n : Nat) : Except Exc Nat :=
  if va.toNat % n = 0 then s.physAddr k va n else .error (misalignedExc k)

/-- The physical address of one byte of a split misaligned access (20_memory.md R111). -/
def State.splitAddr (s : State) (k : Access) (va : Word) : Except Exc Nat :=
  match s.physAddr k va 1 with
  | .error e => .error e
  | .ok pa => if splitOk s.cfg pa then .ok pa else .error (accessExc k)

/-- The elements of a list in the order a number names, the first `fuel` of them. -/
def permute : (fuel : Nat) → List Nat → Nat → List Nat
  | 0, _, _ => []
  | fuel + 1, l, q =>
    let i := q % l.length
    (l[i]?).getD 0 :: permute fuel (l.eraseIdx i) (q / l.length)

/-- The order in which the bytes of a split access are accessed: unspecified (20_memory.md R111; log 10). -/
def State.splitOrder (s : State) (va : Word) (n : Nat) : List Nat :=
  permute n (List.range n) (Config.byteOrder s.draws va)

/-- The address of byte `i` of an access (20_memory.md R100). -/
def State.byteAddr (s : State) (va : Word) (i : Nat) : Word := s.cfg.norm (va + BitVec.ofNat 64 i)

/-- A misaligned access to a region that performs none raises the access fault of its kind before any byte of it
(20_memory.md R111). The region is that of the first byte, when that byte has a physical address (log 18). -/
def State.splitRefused (s : State) (k : Access) (va : Word) : Bool :=
  match s.translate k va with
  | .error _ => false
  | .ok pa => !splitOk s.cfg pa

/-- The byte reads of a split load, in the order given; the value so far is carried along. -/
def State.readSplit (s : State) (k : Access) (va : Word) : List Nat → Word → Except (Exc × Word) Word
  | [], v => .ok v
  | i :: order, v =>
    let a := s.byteAddr va i
    match s.splitAddr k a with
    | .error e => .error (e, a)
    | .ok pa => s.readSplit k va order (v ||| s.physRead k a none pa 1 <<< (8 * i))

/-- The byte writes of a split store, in the order given. A byte that fails leaves the earlier ones written
(60_exceptions.md R722). -/
def State.writeSplit (k : Access) (va v : Word) : List Nat → State → Except (Exc × Word × State) State
  | [], s => .ok s
  | i :: order, s =>
    let a := s.byteAddr va i
    match s.splitAddr k a with
    | .error e => .error (e, a, s)
    | .ok pa => State.writeSplit k va v order (s.physWrite pa 1 ((v >>> (8 * i)).setWidth 8 |>.setWidth 64))

/-- A misaligned access of this kind at this address raises no misaligned exception (20_memory.md R111). -/
def State.split (s : State) (k : Access) (va : Word) (n : Nat) : Bool :=
  va.toNat % n != 0 && s.cfg.misaligned == .support && splits k

/-- `MemRead(va, n)`: the value, zero-extended, or the exception and its trap value (20_memory.md R101, R111). -/
def State.read (s : State) (k : Access) (va : Word) (n : Nat) : Except (Exc × Word) Word :=
  if s.split k va n then
    if s.splitRefused k va then .error (accessExc k, va) else s.readSplit k va (s.splitOrder va n) 0
  else
    match s.alignedAddr k va n with
    | .error e => .error (e, va)
    | .ok pa => .ok (s.physRead k va none pa n)

/-- `MemWrite(va, n, v)`: the state written, or the exception, its trap value and the state it leaves
(20_memory.md R101, R111). -/
def State.write (s : State) (k : Access) (va : Word) (n : Nat) (v : Word) : Except (Exc × Word × State) State :=
  if s.split k va n then
    if s.splitRefused k va then .error (accessExc k, va, s) else State.writeSplit k va v (s.splitOrder va n) s
  else
    match s.alignedAddr k va n with
    | .error e => .error (e, va, s)
    | .ok pa => .ok (s.physWrite pa n v)

/-! ### Taking a trap (60_exceptions.md R740 to R743) -/

/-- The value of a cause register: the `Interrupt` bit at XLEN-1 and the code (10_state.md R66). -/
def causeWord (x : Xlen) (intr : Bool) (code : Nat) : Word :=
  if intr then BitVec.ofNat 64 code ||| 1#64 <<< (x.bits - 1) else BitVec.ofNat 64 code

/-- Where a trap goes (60_exceptions.md R743). -/
def vector (c : Config) (tvec : Word) (intr : Bool) (code : Nat) : Word :=
  let base := tvec &&& ~~~3#64
  if intr ∧ tvec.extractLsb' 0 2 = 1#2 then c.norm (base + BitVec.ofNat 64 (4 * code)) else base

/-- Trap entry into M-mode (60_exceptions.md R740). -/
def State.trapM (s : State) (intr : Bool) (code : Nat) (epc tval : Word) : State :=
  { s with
    csr :=
      { s.csr with
        mepc := epc
        mcause := causeWord s.cfg.xlen intr code
        mtval := tval
        mstatus :=
          { s.csr.mstatus with mpie := s.csr.mstatus.mie, mie := false, mpp := s.priv } }
    priv := .m
    pc := vector s.cfg s.csr.mtvec intr code
    resv := none
    waiting := false }

/-- Trap entry into S-mode (60_exceptions.md R740). -/
def State.trapS (s : State) (intr : Bool) (code : Nat) (epc tval : Word) : State :=
  { s with
    csr :=
      { s.csr with
        sepc := epc
        scause := causeWord s.cfg.xlen intr code
        stval := tval
        mstatus :=
          { s.csr.mstatus with
            spie := s.csr.mstatus.sie, sie := false, spp := decide (s.priv ≠ .u) } }
    priv := .s
    pc := vector s.cfg s.csr.stvec intr code
    resv := none
    waiting := false }

/-- An exception with this code is taken in S-mode (60_exceptions.md R741). -/
def State.delegated (s : State) (code : Nat) : Bool :=
  s.cfg.extS && s.priv != .m && s.csr.medeleg.getLsbD code

/-- TAKING AN EXCEPTION: the one shared operation (60_exceptions.md R740, R741). -/
def State.take (s : State) (e : Exc) (tval : Word) : State :=
  if s.delegated e.code then s.trapS false e.code s.pc tval else s.trapM false e.code s.pc tval

/-- The instruction ends in an exception: the next state is trap entry (00_scope.md R25). -/
def raise (e : Exc) (tval : Word) (s : State) : Result := .next (s.take e tval)

/-- The trap value of an illegal instruction is its bits (60_exceptions.md R721 (c)). -/
def illegal (bits : Word) (s : State) : Result := raise .illegalInstruction bits s

/-! ### Returning from a trap (60_exceptions.md R750, R751) -/

/-- The address a return goes to: bit 0, and without `EXT_C` bit 1, read as 0 (10_state.md R65). -/
def epcMask (c : Config) (epc : Word) : Word := if c.extC then epc &&& ~~~1#64 else epc &&& ~~~3#64

/-- The least privileged configured mode (60_exceptions.md R750). -/
def leastPriv (c : Config) : Priv := if c.extU then .u else .m

/-- The effect of `mret` but for the retirement (60_exceptions.md R750). -/
def State.mret (s : State) : State :=
  let ms := s.csr.mstatus
  { s with
    csr :=
      { s.csr with
        mstatus :=
          { ms with
            mie := ms.mpie, mpie := true, mpp := leastPriv s.cfg
            mprv := ms.mprv && ms.mpp == .m } }
    priv := ms.mpp
    pc := epcMask s.cfg s.csr.mepc
    resv := none }

/-- The effect of `sret` but for the retirement (60_exceptions.md R751). -/
def State.sret (s : State) : State :=
  let ms := s.csr.mstatus
  { s with
    csr :=
      { s.csr with
        mstatus := { ms with sie := ms.spie, spie := true, spp := false, mprv := false } }
    priv := if ms.spp then .s else .u
    pc := epcMask s.cfg s.csr.sepc
    resv := none }

/-! ### Interrupts (60_exceptions.md R730 to R734) -/

/-- The timer input `mtip_in` (60_exceptions.md R771; with PLATFORM = none an input, R770). -/
def State.mtip (s : State) : Bool :=
  match s.cfg.platform with
  | .clint => decide ((s.clint.mtimecmp[s.cfg.hartId]?).getD 0 ≤ s.clint.mtime)
  | .none => s.lines.mtip

/-- The software input `msip_in` (60_exceptions.md R772; with PLATFORM = none an input, R770). -/
def State.msip (s : State) : Bool :=
  match s.cfg.platform with
  | .clint => (s.clint.msip[s.cfg.hartId]?).getD false
  | .none => s.lines.msip

/-- One bit at a place. -/
def bitAt (b : Bool) (i : Nat) : Word := if b then 1#64 <<< i else 0

/-- `mip` with the bit given for `SEIP` (10_state.md R61). -/
def State.mipWith (s : State) (seip : Bool) : Word :=
  bitAt (s.cfg.extS && s.csr.ssip) 1 ||| bitAt s.msip 3 ||| bitAt (s.cfg.extS && s.csr.stip) 5 |||
    bitAt s.mtip 7 ||| bitAt (s.cfg.extS && seip) 9 ||| bitAt s.lines.meip 11

/-- `mip` as a CSR read and the interrupt logic see it (10_state.md R61, 60_exceptions.md R731). -/
def State.mip (s : State) : Word := s.mipWith (s.csr.seip || s.lines.seip)

/-- Interrupts that are pending and individually enabled. -/
def State.pending (s : State) : Word := s.mip &&& s.csr.mie

/-- The interrupt is delegated to S-mode (60_exceptions.md R733). -/
def State.intrToS (s : State) (i : Nat) : Bool := s.cfg.extS && s.csr.mideleg.getLsbD i

/-- The interrupt is destined for M-mode and takeable (60_exceptions.md R733). -/
def State.takeableM (s : State) (i : Nat) : Bool :=
  s.pending.getLsbD i && !s.intrToS i && (s.priv != .m || s.csr.mstatus.mie)

/-- The interrupt is destined for S-mode and takeable (60_exceptions.md R733). -/
def State.takeableS (s : State) (i : Nat) : Bool :=
  s.pending.getLsbD i && s.intrToS i && (s.priv == .u || (s.priv == .s && s.csr.mstatus.sie))

/-- Highest priority first (60_exceptions.md R734). -/
def interruptOrder : List Nat := [11, 3, 7, 9, 1, 5]

/-- The state after the interrupt this step takes, if it takes one (60_exceptions.md R733, R734). -/
def State.interrupt (s : State) : Option State :=
  match interruptOrder.find? s.takeableM with
  | some i => some (s.trapM true i s.pc 0)
  | none =>
    match interruptOrder.find? s.takeableS with
    | some i => some (s.trapS true i s.pc 0)
    | none => none

end Sys2Proof.Machine
end

