-- ==== Sys2Proof/Machine/Flags.lean ====
section
/-! DEFINITION. The five floating-point flags, their accrual, and the checks every floating-point instruction makes
(10_state.md R49; 44_fd.md R391, R394, R395). The integer instructions have no flag (10_state.md R89). -/

namespace Sys2Proof.Machine

open Sys2Proof

/-- A set of flags, laid out as `fflags` (10_state.md R49). -/
abbrev Flags := BitVec 5

/-- Invalid operation. -/
def flagNV : Flags := 0b10000#5
/-- Divide by zero. -/
def flagDZ : Flags := 0b01000#5
/-- Overflow. -/
def flagOF : Flags := 0b00100#5
/-- Underflow. -/
def flagUF : Flags := 0b00010#5
/-- Inexact. -/
def flagNX : Flags := 0b00001#5

/-- The flag, if the condition holds. -/
def flagIf (b : Bool) (f : Flags) : Flags := if b then f else 0

/-- The flags an instruction raises are ORed into `fflags`; raising any makes the floating-point state dirty
(44_fd.md R394, R395). -/
def State.accrue (s : State) (f : Flags) : State :=
  if f = 0 then s
  else
    { s with
      fflags := s.fflags ||| f
      csr := { s.csr with mstatus := { s.csr.mstatus with fs := 3 } } }

/-- A rounding mode (44_fd.md R391). -/
inductive RMode where
  | rne
  | rtz
  | rdn
  | rup
  | rmm
deriving DecidableEq, Repr

/-- The mode a 3-bit code other than DYN names; 5, 6 and 7 name none. -/
def staticMode (rm : BitVec 3) : Option RMode :=
  if rm = 0#3 then some .rne
  else if rm = 1#3 then some .rtz
  else if rm = 2#3 then some .rdn
  else if rm = 3#3 then some .rup
  else if rm = 4#3 then some .rmm
  else none

/-- The mode of an instruction's `rm` field; DYN takes `frm` (44_fd.md R391). -/
def State.roundingMode (s : State) (rm : BitVec 3) : Option RMode :=
  if rm = 7#3 then staticMode s.frm else staticMode rm

/-- The floating-point unit is off (44_fd.md R395). -/
def State.fpOff (s : State) : Bool := s.csr.mstatus.fs == 0#2

/-- The check of a floating-point instruction without an `rm` field: it is illegal with the unit off. -/
def fpGuard (bits : Word) (s : State) (k : Result) : Result := if s.fpOff then illegal bits s else k

/-- The checks of a floating-point instruction with an `rm` field (44_fd.md R391, R395). -/
def fpRounded (bits : Word) (rm : BitVec 3) (s : State) (k : RMode → Result) : Result :=
  if s.fpOff then illegal bits s
  else
    match s.roundingMode rm with
    | none => illegal bits s
    | some m => k m

end Sys2Proof.Machine
end

