-- ==== Sys2Proof/Machine/Csr.lean ====
section
/-! DEFINITION. The control and status registers: which exist, who may access them, what a read gives and what a write
keeps (10_state.md R49 to R81), and the six CSR instructions (40_rv_i.md R250 to R256). -/

namespace Sys2Proof.Machine

open Sys2Proof

/-- The control and status registers of 10_state.md R53. The numbered counters carry their number, 3 to 31. -/
inductive Csr where
  | fflags | frm | fcsr | jvt
  | cycle | time | instret | hpmcounter (n : Nat)
  | cycleh | timeh | instreth | hpmcounterh (n : Nat)
  | sstatus | sie | stvec | scounteren | senvcfg
  | sscratch | sepc | scause | stval | sip | satp
  | mvendorid | marchid | mimpid | mhartid | mconfigptr
  | mstatus | misa | medeleg | mideleg | mie | mtvec | mcounteren | menvcfg | mstatush | menvcfgh
  | mcountinhibit | mhpmevent (n : Nat)
  | mscratch | mepc | mcause | mtval | mip
  | mcycle | minstret | mhpmcounter (n : Nat) | mcycleh | minstreth | mhpmcounterh (n : Nat)
deriving DecidableEq, Repr

/-- The numbered counters: `base + 3` to `base + 31`. -/
def numbered (a base : Nat) (mk : Nat → Csr) : Option Csr :=
  if base + 3 ≤ a ∧ a ≤ base + 31 then some (mk (a - base)) else none

/-- The register an address names, in a configuration that has them all (10_state.md R53). -/
def Csr.ofAddr (a : Nat) : Option Csr :=
  match a with
  | 0x001 => some .fflags
  | 0x002 => some .frm
  | 0x003 => some .fcsr
  | 0x017 => some .jvt
  | 0xC00 => some .cycle
  | 0xC01 => some .time
  | 0xC02 => some .instret
  | 0xC80 => some .cycleh
  | 0xC81 => some .timeh
  | 0xC82 => some .instreth
  | 0x100 => some .sstatus
  | 0x104 => some .sie
  | 0x105 => some .stvec
  | 0x106 => some .scounteren
  | 0x10A => some .senvcfg
  | 0x140 => some .sscratch
  | 0x141 => some .sepc
  | 0x142 => some .scause
  | 0x143 => some .stval
  | 0x144 => some .sip
  | 0x180 => some .satp
  | 0xF11 => some .mvendorid
  | 0xF12 => some .marchid
  | 0xF13 => some .mimpid
  | 0xF14 => some .mhartid
  | 0xF15 => some .mconfigptr
  | 0x300 => some .mstatus
  | 0x301 => some .misa
  | 0x302 => some .medeleg
  | 0x303 => some .mideleg
  | 0x304 => some .mie
  | 0x305 => some .mtvec
  | 0x306 => some .mcounteren
  | 0x30A => some .menvcfg
  | 0x310 => some .mstatush
  | 0x31A => some .menvcfgh
  | 0x320 => some .mcountinhibit
  | 0x340 => some .mscratch
  | 0x341 => some .mepc
  | 0x342 => some .mcause
  | 0x343 => some .mtval
  | 0x344 => some .mip
  | 0xB00 => some .mcycle
  | 0xB02 => some .minstret
  | 0xB80 => some .mcycleh
  | 0xB82 => some .minstreth
  | a =>
    numbered a 0xC00 .hpmcounter <|> numbered a 0xC80 .hpmcounterh <|>
      numbered a 0x320 .mhpmevent <|> numbered a 0xB00 .mhpmcounter <|> numbered a 0xB80 .mhpmcounterh

/-- The column "exists when" of 10_state.md R53; EXT_ZICSR is a condition of the instructions themselves. -/
def Csr.present (c : Config) : Csr → Bool
  | .fflags | .frm | .fcsr => c.extF
  | .jvt => c.extZcmt
  | .cycle | .time | .instret | .hpmcounter _ => true
  | .cycleh | .timeh | .instreth | .hpmcounterh _ | .mstatush | .mcycleh | .minstreth
  | .mhpmcounterh _ => c.xlen == .rv32
  | .sstatus | .sie | .stvec | .scounteren | .senvcfg | .sscratch | .sepc | .scause | .stval | .sip
  | .satp | .medeleg | .mideleg => c.extS
  | .mcounteren | .menvcfg => c.extU
  | .menvcfgh => c.extU && c.xlen == .rv32
  | .mvendorid | .marchid | .mimpid | .mhartid | .mconfigptr | .mstatus | .misa | .mie | .mtvec
  | .mcountinhibit | .mhpmevent _ | .mscratch | .mepc | .mcause | .mtval | .mip | .mcycle
  | .minstret | .mhpmcounter _ => true

/-- The number of a user counter, for the counter-enable check (10_state.md R81). -/
def Csr.counter : Csr → Option Nat
  | .cycle | .cycleh => some 0
  | .time | .timeh => some 1
  | .instret | .instreth => some 2
  | .hpmcounter n | .hpmcounterh n => some n
  | _ => none

/-- The counter-enable check (10_state.md R81). -/
def State.counterOk (s : State) (n : Nat) : Bool :=
  match s.priv with
  | .m => true
  | .s => s.csr.mcounteren.getLsbD n
  | .u => s.csr.mcounteren.getLsbD n && (!s.cfg.extS || s.csr.scounteren.getLsbD n)

/-- The encoding of a mode (10_state.md R50). -/
def Priv.code : Priv → BitVec 2
  | .u => 0
  | .s => 1
  | .m => 3

/-- The CSR access check (10_state.md R52): the register, or `none` for an illegal instruction. -/
def State.csrAccess (s : State) (a : BitVec 12) (writes : Bool) : Option Csr :=
  match Csr.ofAddr a.toNat with
  | none => none
  | some r =>
    if r.present s.cfg && !(s.priv.code < a.extractLsb' 8 2) &&
        !(writes && a.extractLsb' 10 2 == 3#2) &&
        !((r == .fflags || r == .frm || r == .fcsr) && s.fpOff) &&
        !(r == .satp && s.priv == .s && s.csr.mstatus.tvm) &&
        (match r.counter with
         | none => true
         | some n => s.counterOk n)
    then some r
    else none

/-! ### Views -/

/-- `mstatus` (10_state.md R54). -/
def State.mstatusWord (s : State) : Word :=
  let ms := s.csr.mstatus
  bitAt ms.sie 1 ||| bitAt ms.mie 3 ||| bitAt ms.spie 5 ||| bitAt ms.mpie 7 ||| bitAt ms.spp 8 |||
    ms.mpp.code.setWidth 64 <<< 11 ||| ms.fs.setWidth 64 <<< 13 ||| bitAt ms.mprv 17 |||
    bitAt ms.sum 18 ||| bitAt ms.mxr 19 ||| bitAt ms.tvm 20 ||| bitAt ms.tw 21 ||| bitAt ms.tsr 22 |||
    bitAt (ms.fs == 3#2) (s.cfg.xlen.bits - 1) |||
    bitAt (s.cfg.xlen == .rv64 && s.cfg.extU) 33 ||| bitAt (s.cfg.xlen == .rv64 && s.cfg.extS) 35

/-- The bits of `mstatus` that `sstatus` shows (10_state.md R56). -/
def sstatusMask (x : Xlen) : Word :=
  match x with
  | .rv32 => 0x800DE762#64
  | .rv64 => 0x80000003000DE762#64

/-- `misa` (10_state.md R57). -/
def misaWord (c : Config) : Word :=
  bitAt c.extA 0 ||| bitAt (c.extZba && c.extZbb && c.extZbs) 1 ||| bitAt c.extC 2 |||
    bitAt c.extD 3 ||| bitAt c.rv32e 4 ||| bitAt c.extF 5 ||| bitAt (!c.rv32e) 8 |||
    bitAt c.extM 12 ||| bitAt c.extS 18 ||| bitAt c.extU 20 |||
    (match c.xlen with
     | .rv32 => 1#64 <<< 30
     | .rv64 => 2#64 <<< 62)

/-- The part of a 64-bit counter that its CSR without `h` shows (10_state.md R80). -/
def lowPart : Xlen → Part
  | .rv32 => .lo
  | .rv64 => .both

/-- The value of a CSR, zero-extended (10_state.md R52). -/
def State.csrGet (s : State) : Csr → Word
  | .fflags => s.fflags.setWidth 64
  | .frm => s.frm.setWidth 64
  | .fcsr => (s.frm ++ s.fflags).setWidth 64
  | .jvt => s.csr.jvt
  | .cycle | .mcycle => partGet s.csr.mcycle (lowPart s.cfg.xlen)
  | .instret | .minstret => partGet s.csr.minstret (lowPart s.cfg.xlen)
  | .time => partGet s.clint.mtime (lowPart s.cfg.xlen)
  | .cycleh | .mcycleh => partGet s.csr.mcycle .hi
  | .instreth | .minstreth => partGet s.csr.minstret .hi
  | .timeh => partGet s.clint.mtime .hi
  | .hpmcounter _ | .hpmcounterh _ | .mhpmcounter _ | .mhpmcounterh _ | .mhpmevent _ => 0
  | .sstatus => s.mstatusWord &&& sstatusMask s.cfg.xlen
  | .sie => s.csr.mie &&& s.csr.mideleg
  | .stvec => s.csr.stvec
  | .scounteren => s.csr.scounteren
  | .senvcfg | .menvcfg | .menvcfgh => 0
  | .sscratch => s.csr.sscratch
  | .sepc => epcMask s.cfg s.csr.sepc
  | .scause => s.csr.scause
  | .stval => s.csr.stval
  | .sip => s.mip &&& s.csr.mideleg
  | .satp => s.csr.satp
  | .mvendorid | .marchid | .mimpid | .mconfigptr => 0
  | .mhartid => s.cfg.norm (BitVec.ofNat 64 s.cfg.hartId)
  | .mstatus => s.mstatusWord
  | .mstatush => 0
  | .misa => misaWord s.cfg
  | .medeleg => s.csr.medeleg
  | .mideleg => s.csr.mideleg
  | .mie => s.csr.mie
  | .mtvec => s.csr.mtvec
  | .mcounteren => s.csr.mcounteren
  | .mcountinhibit => s.csr.mcountinhibit
  | .mscratch => s.csr.mscratch
  | .mepc => epcMask s.cfg s.csr.mepc
  | .mcause => s.csr.mcause
  | .mtval => s.csr.mtval
  | .mip => s.mip

/-- The value a read-modify-write computes from: of `mip.SEIP` only the written bit (10_state.md R61). -/
def State.csrBase (s : State) (r : Csr) : Word :=
  match r with
  | .mip => s.mipWith s.csr.seip
  | r => s.csrGet r

/-! ### Legal values (10_state.md R74) -/

/-- What `MPP` becomes: a configured mode, or it keeps its value (10_state.md R54). -/
def mppOf (c : Config) (old : Priv) (v : BitVec 2) : Priv :=
  if v = 3#2 then .m
  else if v = 1#2 ∧ c.extS then .s
  else if v = 0#2 ∧ c.extU then .u
  else old

/-- A write to `mstatus` (10_state.md R54). -/
def mstatusOf (c : Config) (old : MStatus) (v : Word) : MStatus :=
  { sie := c.extS && v.getLsbD 1
    mie := v.getLsbD 3
    spie := c.extS && v.getLsbD 5
    mpie := v.getLsbD 7
    spp := c.extS && v.getLsbD 8
    mpp := mppOf c old.mpp (v.extractLsb' 11 2)
    fs := if c.extF then v.extractLsb' 13 2 else 0
    mprv := c.extU && v.getLsbD 17
    sum := c.extS && v.getLsbD 18
    mxr := c.extS && v.getLsbD 19
    tvm := c.extS && v.getLsbD 20
    tw := c.extU && v.getLsbD 21
    tsr := c.extS && v.getLsbD 22 }

/-- A write to `sstatus` (10_state.md R56). -/
def sstatusOf (c : Config) (old : MStatus) (v : Word) : MStatus :=
  let w := mstatusOf c old v
  { old with sie := w.sie, spie := w.spie, spp := w.spp, fs := w.fs, sum := w.sum, mxr := w.mxr }

/-- A write to `mtvec` or `stvec`: a `MODE` that is not allowed leaves the register unchanged (10_state.md R62, R63). -/
def tvecOf (c : Config) (old v : Word) : Word :=
  let mode := v.extractLsb' 0 2
  if mode = 0#2 ∨ (mode = 1#2 ∧ c.mtvecVectored) then v else old

/-- A write to `satp`: a `MODE` that is not supported leaves the register unchanged; `ASID` keeps its low ASIDLEN bits
(10_state.md R69). -/
def satpOf (c : Config) (old v : Word) : Word :=
  match c.xlen with
  | .rv32 =>
    if v.extractLsb' 31 1 = 0#1 ∨ c.paging then
      (v.extractLsb' 31 1 ++ (v.extractLsb' 22 9 &&& BitVec.ofNat 9 (2 ^ c.asidLen - 1)) ++
        v.extractLsb' 0 22).setWidth 64
    else old
  | .rv64 =>
    if v.extractLsb' 60 4 = 0#4 ∨ (v.extractLsb' 60 4 = 8#4 ∧ c.paging) then
      v.extractLsb' 60 4 ++ (v.extractLsb' 44 16 &&& BitVec.ofNat 16 (2 ^ c.asidLen - 1)) ++
        v.extractLsb' 0 44
    else old

/-- The writable bits of `medeleg` (10_state.md R59). -/
def medelegMask : Word := 0xB3FF#64

/-- The writable bits of `mideleg` (10_state.md R60). -/
def midelegMask : Word := 0x222#64

/-- The writable bits of `mie` (10_state.md R61). -/
def mieMask (c : Config) : Word := if c.extS then 0xAAA#64 else 0x888#64

/-- The low 32 bits. -/
def low32 (v : Word) : Word := (v.setWidth 32).setWidth 64

/-- The state with `mstatus` changed. -/
def State.setMStatus (s : State) (ms : MStatus) : State := { s with csr := { s.csr with mstatus := ms } }

/-- The floating-point state becomes dirty. -/
def State.dirty (s : State) : State := s.setMStatus { s.csr.mstatus with fs := 3 }

/-- A write of an XLEN-bit value to a CSR, filtered by each field's rule (10_state.md R52, R74). A read-only CSR is not
written: the access check has refused it, or the spec says that the write is ignored. -/
def State.csrPut (s : State) (r : Csr) (v : Word) : State :=
  let c := s.csr
  match r with
  | .fflags => { s.dirty with fflags := v.setWidth 5 }
  | .frm => { s.dirty with frm := v.setWidth 3 }
  | .fcsr => { s.dirty with fflags := v.setWidth 5, frm := v.extractLsb' 5 3 }
  | .jvt => { s with csr := { c with jvt := v &&& ~~~63#64 } }
  | .sstatus => s.setMStatus (sstatusOf s.cfg c.mstatus v)
  | .sie =>
    { s with
      csr := { c with mie := (c.mie &&& ~~~c.mideleg) ||| (v &&& c.mideleg &&& mieMask s.cfg) } }
  | .stvec => { s with csr := { c with stvec := tvecOf s.cfg c.stvec v } }
  | .scounteren => { s with csr := { c with scounteren := low32 v } }
  | .sscratch => { s with csr := { c with sscratch := v } }
  | .sepc => { s with csr := { c with sepc := v &&& ~~~1#64 } }
  | .scause => { s with csr := { c with scause := v } }
  | .stval => { s with csr := { c with stval := v } }
  | .sip => { s with csr := { c with ssip := if c.mideleg.getLsbD 1 then v.getLsbD 1 else c.ssip } }
  | .satp => { s with csr := { c with satp := satpOf s.cfg c.satp v } }
  | .mstatus => s.setMStatus (mstatusOf s.cfg c.mstatus v)
  | .medeleg => { s with csr := { c with medeleg := v &&& medelegMask } }
  | .mideleg => { s with csr := { c with mideleg := v &&& midelegMask } }
  | .mie => { s with csr := { c with mie := v &&& mieMask s.cfg } }
  | .mtvec => { s with csr := { c with mtvec := tvecOf s.cfg c.mtvec v } }
  | .mcounteren => { s with csr := { c with mcounteren := low32 v } }
  | .mcountinhibit => { s with csr := { c with mcountinhibit := v &&& 5#64 } }
  | .mscratch => { s with csr := { c with mscratch := v } }
  | .mepc => { s with csr := { c with mepc := v &&& ~~~1#64 } }
  | .mcause => { s with csr := { c with mcause := v } }
  | .mtval => { s with csr := { c with mtval := v } }
  | .mip =>
    { s with
      csr :=
        { c with
          ssip := s.cfg.extS && v.getLsbD 1
          stip := s.cfg.extS && v.getLsbD 5
          seip := s.cfg.extS && v.getLsbD 9 } }
  | .mcycle => { s with csr := { c with mcycle := partSet c.mcycle v (lowPart s.cfg.xlen) } }
  | .minstret => { s with csr := { c with minstret := partSet c.minstret v (lowPart s.cfg.xlen) } }
  | .mcycleh => { s with csr := { c with mcycle := partSet c.mcycle v .hi } }
  | .minstreth => { s with csr := { c with minstret := partSet c.minstret v .hi } }
  | .cycle | .time | .instret | .hpmcounter _ | .cycleh | .timeh | .instreth | .hpmcounterh _
  | .senvcfg | .mvendorid | .marchid | .mimpid | .mhartid | .mconfigptr | .misa | .menvcfg
  | .mstatush | .menvcfgh | .mhpmevent _ | .mhpmcounter _ | .mhpmcounterh _ => s

/-! ### The CSR instructions -/

/-- What a CSR instruction writes. -/
inductive CsrOp where
  | write
  | set
  | clear
deriving DecidableEq, Repr

/-- The value written, from the old value and the operand (40_rv_i.md R251 to R256). -/
def CsrOp.apply (op : CsrOp) (old v : Word) : Word :=
  match op with
  | .write => v
  | .set => old ||| v
  | .clear => old &&& ~~~v

/-- A write to the register takes the place of the instruction's own count (10_state.md R80). -/
def Csr.replacesCount (r : Csr) : Bool := r == .minstret || r == .minstreth

/-- The end of a CSR instruction. -/
def csrRetire (writes : Bool) (r : Csr) (s : State) : Result :=
  if writes && r.replacesCount then .next { s with pc := s.after 4 } else retire 4 s

/-- A CSR instruction (40_rv_i.md R250). With `rd = x0` the read is suppressed: no read of this machine has a side
effect, and the value is discarded. -/
def csrInstr (bits : Word) (op : CsrOp) (rd : Reg) (a : BitVec 12) (v : Word) (writes : Bool) (s : State) : Result :=
  match s.csrAccess a writes with
  | none => illegal bits s
  | some r =>
    let written := if writes then s.csrPut r (op.apply (s.csrBase r) v) else s
    csrRetire writes r (written.wx rd (s.csrGet r))

end Sys2Proof.Machine
end

