-- ==== Sys2Proof/Machine/Float.lean ====
section
/-! DEFINITION. IEEE 754-2008 binary arithmetic on the half, single and double formats: exact results over the natural
numbers and the integers, rounded once (44_fd.md R390 to R403, 47_zfh.md R620, R621). -/

namespace Sys2Proof.Machine

open Sys2Proof

/-- A floating-point format (44_fd.md R390, 47_zfh.md R620). -/
inductive Fmt where
  | h
  | s
  | d
deriving DecidableEq, Repr

namespace Fmt

/-- Bits of the exponent field. -/
def ebits : Fmt → Nat
  | .h => 5
  | .s => 8
  | .d => 11

/-- Bits of the fraction field. -/
def mbits : Fmt → Nat
  | .h => 10
  | .s => 23
  | .d => 52

/-- Bits of the format. -/
def width : Fmt → Nat
  | .h => 16
  | .s => 32
  | .d => 64

/-- Bytes of the format. -/
def bytes : Fmt → Nat
  | .h => 2
  | .s => 4
  | .d => 8

/-- The exponent bias. -/
def bias (f : Fmt) : Int := 2 ^ (f.ebits - 1) - 1

/-- The exponent of the smallest normal number. -/
def emin (f : Fmt) : Int := 1 - f.bias

/-- The exponent field of infinities and NaNs. -/
def emax (f : Fmt) : Nat := 2 ^ f.ebits - 1

/-- The bits of the format with a sign and a magnitude. -/
def pack (f : Fmt) (sign : Bool) (mag : Nat) : Word :=
  BitVec.ofNat 64 ((if sign then 2 ^ (f.width - 1) else 0) + mag)

/-- The canonical quiet NaN (44_fd.md R393). -/
def nan (f : Fmt) : Word := f.pack false (f.emax * 2 ^ f.mbits + 2 ^ (f.mbits - 1))

/-- An infinity. -/
def inf (f : Fmt) (sign : Bool) : Word := f.pack sign (f.emax * 2 ^ f.mbits)

/-- A zero. -/
def zero (f : Fmt) (sign : Bool) : Word := f.pack sign 0

/-- The largest finite number. -/
def largest (f : Fmt) (sign : Bool) : Word := f.pack sign (f.emax * 2 ^ f.mbits - 1)

/-- The sign bit. -/
def sign (f : Fmt) (v : Word) : Bool := v.getLsbD (f.width - 1)

/-- All bits but the sign. -/
def mag (f : Fmt) (v : Word) : Nat := v.toNat % 2 ^ (f.width - 1)

/-- The fraction field. -/
def frac (f : Fmt) (v : Word) : Nat := v.toNat % 2 ^ f.mbits

/-- The exponent field. -/
def expo (f : Fmt) (v : Word) : Nat := f.mag v / 2 ^ f.mbits

end Fmt

/-- The value of a floating-point datum, or the exact result of an operation. -/
inductive FVal where
  /-- A NaN; a signaling one, or the result of an invalid operation, raises NV. -/
  | nan (signaling : Bool)
  | inf (sign : Bool)
  /-- `± m * 2^e`; a zero has `m = 0`. -/
  | fin (sign : Bool) (m : Nat) (e : Int)
deriving DecidableEq, Repr

/-- The value of bits of a format (44_fd.md R390). -/
def Fmt.val (f : Fmt) (v : Word) : FVal :=
  if f.expo v = f.emax then
    if f.frac v = 0 then .inf (f.sign v) else .nan (!v.getLsbD (f.mbits - 1))
  else if f.expo v = 0 then .fin (f.sign v) (f.frac v) (f.emin - f.mbits)
  else .fin (f.sign v) (f.frac v + 2 ^ f.mbits) (f.expo v - f.bias - f.mbits)

/-- The datum is a NaN. -/
def FVal.isNan : FVal → Bool
  | .nan _ => true
  | .inf _ | .fin _ _ _ => false

/-- The datum is a signaling NaN. -/
def FVal.isSignaling : FVal → Bool
  | .nan sig => sig
  | .inf _ | .fin _ _ _ => false

/-! ### Boxing (10_state.md R48) -/

/-- `box_w(v)`; the bits above FLEN are cut off when the register is written. -/
def box (f : Fmt) (v : Word) : Word := v ||| BitVec.allOnes 64 <<< f.width

/-- `unbox_w(f[r])`: the low bits if the box is proper, otherwise the canonical NaN. -/
def State.fv (s : State) (f : Fmt) (r : Reg) : Word :=
  let w := s.rf r
  if s.cfg.fnorm w = s.cfg.fnorm (box f w) then w &&& ~~~(BitVec.allOnes 64 <<< f.width) else f.nan

/-! ### Rounding (44_fd.md R391, R392) -/

/-- Whether a truncated quotient `q` with remainder `r` of a division by `2^n` is rounded away from zero. -/
def roundsUp (mode : RMode) (sign : Bool) (q r n : Nat) : Bool :=
  match mode with
  | .rne => decide (2 ^ n < 2 * r) || (decide (2 * r = 2 ^ n) && q % 2 == 1)
  | .rtz => false
  | .rdn => sign && r != 0
  | .rup => !sign && r != 0
  | .rmm => decide (2 ^ n ≤ 2 * r)

/-- `m / 2^n` rounded to an integer. -/
def roundShift (mode : RMode) (sign : Bool) (m n : Nat) : Nat :=
  m / 2 ^ n + (if roundsUp mode sign (m / 2 ^ n) (m % 2 ^ n) n then 1 else 0)

/-- `m * 2^e` as a multiple of `2^q`, rounded. -/
def roundTo (mode : RMode) (sign : Bool) (m : Nat) (e q : Int) : Nat :=
  if q ≤ e then m * 2 ^ (e - q).toNat else roundShift mode sign m (q - e).toNat

/-- `m * 2^e` is a multiple of `2^q`. -/
def exactAt (m : Nat) (e q : Int) : Bool := decide (q ≤ e) || m % 2 ^ (q - e).toNat == 0

/-- The result on overflow (44_fd.md R392). -/
def overflow (f : Fmt) (mode : RMode) (sign : Bool) : Word :=
  match mode with
  | .rne | .rmm => f.inf sign
  | .rtz => f.largest sign
  | .rdn => if sign then f.inf sign else f.largest sign
  | .rup => if sign then f.largest sign else f.inf sign

/-- `± m * 2^e` rounded once to a format, with the flags OF, UF, NX (44_fd.md R392). Tininess is detected after
rounding: the number rounded with an unbounded exponent lies below `2^emin`. -/
def round (f : Fmt) (mode : RMode) (sign : Bool) (m : Nat) (e : Int) : Word × Flags :=
  if m = 0 then (f.zero sign, 0)
  else
    let top := e + Nat.log2 m
    let free := top - f.mbits
    let q := max free (f.emin - f.mbits)
    let n := roundTo mode sign m e q
    let inexact := !exactAt m e q
    let tiny := decide (top < f.emin) &&
      !(decide (top + 1 = f.emin) && roundTo mode sign m e free == 2 ^ (f.mbits + 1))
    let mag : Nat :=
      if n < 2 ^ f.mbits then n else (q + f.mbits + f.bias).toNat * 2 ^ f.mbits + (n - 2 ^ f.mbits)
    if f.emax * 2 ^ f.mbits ≤ mag then (overflow f mode sign, flagOF ||| flagNX)
    else (f.pack sign mag, flagIf (inexact && tiny) flagUF ||| flagIf inexact flagNX)

/-- An exact result rounded to a format; every NaN result is the canonical one (44_fd.md R392, R393). -/
def roundVal (f : Fmt) (mode : RMode) : FVal → Word × Flags
  | .nan sig => (f.nan, flagIf sig flagNV)
  | .inf sign => (f.inf sign, 0)
  | .fin sign m e => round f mode sign m e

/-! ### Exact arithmetic (44_fd.md R392, R397) -/

namespace FVal

/-- The negative; a NaN is kept. -/
def neg : FVal → FVal
  | .nan sig => .nan sig
  | .inf sign => .inf !sign
  | .fin sign m e => .fin (!sign) m e

/-- A signed magnitude. -/
def signed (sign : Bool) (m : Nat) : Int := if sign then -(m : Int) else m

/-- The sum of two finite numbers. An exact zero sum of opposite signs is `-0` only when rounding down. -/
def addFin (mode : RMode) (s₁ : Bool) (m₁ : Nat) (e₁ : Int) (s₂ : Bool) (m₂ : Nat) (e₂ : Int) : FVal :=
  let e := min e₁ e₂
  let n := signed s₁ (m₁ * 2 ^ (e₁ - e).toNat) + signed s₂ (m₂ * 2 ^ (e₂ - e).toNat)
  if n = 0 then .fin (if s₁ = s₂ then s₁ else decide (mode = .rdn)) 0 0
  else .fin (decide (n < 0)) n.natAbs e

/-- The sum. `inf - inf` is invalid. -/
def add (mode : RMode) : FVal → FVal → FVal
  | .nan s, y => .nan (s || y.isSignaling)
  | .inf _, .nan t => .nan t
  | .fin _ _ _, .nan t => .nan t
  | .inf s, .inf t => if s = t then .inf s else .nan true
  | .inf s, .fin _ _ _ => .inf s
  | .fin _ _ _, .inf t => .inf t
  | .fin s m e, .fin t n k => addFin mode s m e t n k

/-- The product. `0 * inf` is invalid. -/
def mul : FVal → FVal → FVal
  | .nan s, y => .nan (s || y.isSignaling)
  | .inf _, .nan t => .nan t
  | .fin _ _ _, .nan t => .nan t
  | .inf s, .inf t => .inf (s ^^ t)
  | .inf s, .fin t n _ => if n = 0 then .nan true else .inf (s ^^ t)
  | .fin s m _, .inf t => if m = 0 then .nan true else .inf (s ^^ t)
  | .fin s m e, .fin t n k => .fin (s ^^ t) (m * n) (e + k)

/-- `(x * y) + z` exactly; when `x * y` is `0 * inf` it is invalid even with a quiet NaN for `z` (44_fd.md R397). -/
def fma (mode : RMode) (x y z : FVal) : FVal := (x.mul y).add mode z

/-- The quotient of two finite numbers, to `p` bits and one more that says whether it is inexact. -/
def divFin (p : Nat) (sign : Bool) (m : Nat) (e : Int) (n : Nat) (k : Int) : FVal :=
  let sh := p + 1 + Nat.log2 n
  let a := m * 2 ^ sh
  .fin sign (2 * (a / n) + (if a % n = 0 then 0 else 1)) (e - k - sh - 1)

/-- The quotient, and whether a finite non-zero number is divided by zero. `0 / 0` and `inf / inf` are invalid. -/
def div (p : Nat) : FVal → FVal → FVal × Bool
  | .nan s, y => (.nan (s || y.isSignaling), false)
  | .inf _, .nan t => (.nan t, false)
  | .fin _ _ _, .nan t => (.nan t, false)
  | .inf _, .inf _ => (.nan true, false)
  | .inf s, .fin t _ _ => (.inf (s ^^ t), false)
  | .fin s _ _, .inf t => (.fin (s ^^ t) 0 0, false)
  | .fin s m e, .fin t n k =>
    if n = 0 then if m = 0 then (.nan true, false) else (.inf (s ^^ t), true)
    else (divFin p (s ^^ t) m e n k, false)

/-- The integer square root, bit by bit from bit `b - 1` down. -/
def isqrtFrom (n : Nat) : (b r : Nat) → Nat
  | 0, r => r
  | b + 1, r => if (r + 2 ^ b) * (r + 2 ^ b) ≤ n then isqrtFrom n b (r + 2 ^ b) else isqrtFrom n b r

/-- The largest `r` with `r * r ≤ n`. -/
def isqrt (n : Nat) : Nat := isqrtFrom n (Nat.log2 n / 2 + 1) 0

/-- The square root, to `p` bits and one more that says whether it is inexact. Of a number below zero it is invalid;
of `-0` it is `-0`. -/
def sqrt (p : Nat) : FVal → FVal
  | .nan s => .nan s
  | .inf s => if s then .nan true else .inf false
  | .fin s m e =>
    if m = 0 then .fin s 0 0
    else if s then .nan true
    else
      let m' := if e % 2 = 0 then m else 2 * m
      let a := m' * 4 ^ p
      .fin false (2 * isqrt a + (if isqrt a * isqrt a = a then 0 else 1)) (e / 2 - p - 1)

end FVal

/-! ### The operations on bits of a format -/

/-- `fadd`. -/
def fpAdd (f : Fmt) (mode : RMode) (a b : Word) : Word × Flags := roundVal f mode ((f.val a).add mode (f.val b))

/-- `fsub`. -/
def fpSub (f : Fmt) (mode : RMode) (a b : Word) : Word × Flags :=
  roundVal f mode ((f.val a).add mode (f.val b).neg)

/-- `fmul`. -/
def fpMul (f : Fmt) (mode : RMode) (a b : Word) : Word × Flags := roundVal f mode ((f.val a).mul (f.val b))

/-- `fdiv`. -/
def fpDiv (f : Fmt) (mode : RMode) (a b : Word) : Word × Flags :=
  let q := (f.val a).div (f.mbits + 2) (f.val b)
  let r := roundVal f mode q.1
  (r.1, r.2 ||| flagIf q.2 flagDZ)

/-- `fsqrt`. -/
def fpSqrt (f : Fmt) (mode : RMode) (a : Word) : Word × Flags := roundVal f mode ((f.val a).sqrt (f.mbits + 2))

/-- `fmadd`: `(a * b) + c` (44_fd.md R397). -/
def fpMadd (f : Fmt) (mode : RMode) (a b c : Word) : Word × Flags :=
  roundVal f mode (FVal.fma mode (f.val a) (f.val b) (f.val c))

/-- `fmsub`: `(a * b) - c`. -/
def fpMsub (f : Fmt) (mode : RMode) (a b c : Word) : Word × Flags :=
  roundVal f mode (FVal.fma mode (f.val a) (f.val b) (f.val c).neg)

/-- `fnmsub`: `-(a * b) + c`. -/
def fpNmsub (f : Fmt) (mode : RMode) (a b c : Word) : Word × Flags :=
  roundVal f mode (FVal.fma mode (f.val a).neg (f.val b) (f.val c))

/-- `fnmadd`: `-(a * b) - c`. -/
def fpNmadd (f : Fmt) (mode : RMode) (a b c : Word) : Word × Flags :=
  roundVal f mode (FVal.fma mode (f.val a).neg (f.val b) (f.val c).neg)

/-- A conversion between floating-point formats (44_fd.md R405). -/
def fpConvert (src dst : Fmt) (mode : RMode) (a : Word) : Word × Flags := roundVal dst mode (src.val a)

/-- An integer converted to a format (44_fd.md R402; for half precision also 47_zfh.md R621 (a)). -/
def fpOfInt (f : Fmt) (mode : RMode) (i : Int) : Word × Flags := round f mode (decide (i < 0)) i.natAbs 0

/-- An integer type a floating-point number converts to (44_fd.md R399). -/
inductive IntTy where
  | w
  | wu
  | l
  | lu
deriving DecidableEq, Repr

/-- The least value of the type. -/
def IntTy.lo : IntTy → Int
  | .w => -2 ^ 31
  | .wu => 0
  | .l => -2 ^ 63
  | .lu => 0

/-- The greatest value of the type. -/
def IntTy.hi : IntTy → Int
  | .w => 2 ^ 31 - 1
  | .wu => 2 ^ 32 - 1
  | .l => 2 ^ 63 - 1
  | .lu => 2 ^ 64 - 1

/-- The value in a register: sign-extended from the width of the type (44_fd.md R399). -/
def IntTy.reg (t : IntTy) (i : Int) : Word :=
  match t with
  | .w | .wu => (BitVec.ofInt 32 i).signExtend 64
  | .l | .lu => BitVec.ofInt 64 i

/-- A float converted to an integer type, saturating (44_fd.md R399). -/
def fpToInt (f : Fmt) (t : IntTy) (mode : RMode) (a : Word) : Word × Flags :=
  match f.val a with
  | .nan _ => (t.reg t.hi, flagNV)
  | .inf sign => (t.reg (if sign then t.lo else t.hi), flagNV)
  | .fin sign m e =>
    let i := FVal.signed sign (roundTo mode sign m e 0)
    if t.hi < i then (t.reg t.hi, flagNV)
    else if i < t.lo then (t.reg t.lo, flagNV)
    else (t.reg i, flagIf (!exactAt m e 0) flagNX)

/-- The place of a number that is not a NaN in the order of the format; both zeros are at 0. -/
def orderKey (f : Fmt) (a : Word) : Int := FVal.signed (f.sign a) (f.mag a)

/-- One of the operands is a NaN. -/
def anyNan (f : Fmt) (a b : Word) : Bool := (f.val a).isNan || (f.val b).isNan

/-- One of the operands is a signaling NaN. -/
def anySignaling (f : Fmt) (a b : Word) : Bool := (f.val a).isSignaling || (f.val b).isSignaling

/-- `feq`: quiet (44_fd.md R400). -/
def fpEq (f : Fmt) (a b : Word) : Word × Flags :=
  (if !anyNan f a b && orderKey f a == orderKey f b then 1 else 0, flagIf (anySignaling f a b) flagNV)

/-- The NV flag of `flt` and `fle`, by FLT_FLE_SIGNALING (44_fd.md R400). -/
def compareFlags (c : Config) (f : Fmt) (a b : Word) : Flags :=
  flagIf (if c.fltFleSignaling then anyNan f a b else anySignaling f a b) flagNV

/-- `flt` (44_fd.md R400). -/
def fpLt (c : Config) (f : Fmt) (a b : Word) : Word × Flags :=
  (if !anyNan f a b && decide (orderKey f a < orderKey f b) then 1 else 0, compareFlags c f a b)

/-- `fle` (44_fd.md R400). -/
def fpLe (c : Config) (f : Fmt) (a b : Word) : Word × Flags :=
  (if !anyNan f a b && decide (orderKey f a ≤ orderKey f b) then 1 else 0, compareFlags c f a b)

/-- `a` comes before `b` in the order of `fmin` and `fmax`: `-0` is below `+0` (44_fd.md R398). -/
def fpBefore (f : Fmt) (a b : Word) : Bool :=
  decide (orderKey f a < orderKey f b) || (orderKey f a == orderKey f b && f.sign a)

/-- `fmin` and `fmax` when one operand is a NaN, otherwise the value given (44_fd.md R398). -/
def fpPick (f : Fmt) (a b v : Word) : Word × Flags :=
  (if (f.val a).isNan then (if (f.val b).isNan then f.nan else b) else if (f.val b).isNan then a else v,
    flagIf (anySignaling f a b) flagNV)

/-- `fmin` (44_fd.md R398). -/
def fpMin (f : Fmt) (a b : Word) : Word × Flags := fpPick f a b (if fpBefore f a b then a else b)

/-- `fmax` (44_fd.md R398). -/
def fpMax (f : Fmt) (a b : Word) : Word × Flags := fpPick f a b (if fpBefore f a b then b else a)

/-- Operand 1 with another sign (44_fd.md R403). -/
def fpWithSign (f : Fmt) (a : Word) (sign : Bool) : Word := f.pack sign (f.mag a)

/-- `fsgnj`. -/
def fpSgnj (f : Fmt) (a b : Word) : Word := fpWithSign f a (f.sign b)

/-- `fsgnjn`. -/
def fpSgnjn (f : Fmt) (a b : Word) : Word := fpWithSign f a (!f.sign b)

/-- `fsgnjx`. -/
def fpSgnjx (f : Fmt) (a b : Word) : Word := fpWithSign f a (f.sign a ^^ f.sign b)

/-- The bit of the Classify Table (44_fd.md R401). -/
def fpClassBit (f : Fmt) (a : Word) : Nat :=
  match f.val a with
  | .nan sig => if sig then 8 else 9
  | .inf sign => if sign then 0 else 7
  | .fin sign m _ =>
    if m = 0 then if sign then 3 else 4
    else if f.expo a = 0 then if sign then 2 else 5
    else if sign then 1 else 6

/-- `fclass` (44_fd.md R401). -/
def fpClass (f : Fmt) (a : Word) : Word := 1#64 <<< fpClassBit f a

end Sys2Proof.Machine
end

