-- ==== Sys2Proof/Machine/Alu.lean ====
section
/-! DEFINITION. The computations and the instruction shapes the families share: integer arithmetic of width XLEN
(00_scope.md R22, 42_m.md R320, R321, 46_b.md R552), register write-back, jumps, loads, stores, and the floating-point
shapes. -/

namespace Sys2Proof

namespace Config

/-- `a <s b` on XLEN bits (00_scope.md R22). -/
def ltS (c : Config) (a b : Word) : Bool := (c.sx a).slt (c.sx b)

/-- `a <u b` on XLEN bits (00_scope.md R22). -/
def ltU (c : Config) (a b : Word) : Bool := (c.norm a).ult (c.norm b)

/-- `a >>u n` on XLEN bits (00_scope.md R22). -/
def srl (c : Config) (a : Word) (n : Nat) : Word := c.norm a >>> n

/-- `a >>s n` on XLEN bits (00_scope.md R22). -/
def sra (c : Config) (a : Word) (n : Nat) : Word := (c.sx a).sshiftRight n

/-- `rotr_XLEN(a, n)` (46_b.md R552). -/
def rotr (c : Config) (a : Word) (n : Nat) : Word :=
  match c.xlen with
  | .rv32 => ((a.setWidth 32).rotateRight n).setWidth 64
  | .rv64 => a.rotateRight n

/-- `rotl_XLEN(a, n)` (46_b.md R552). -/
def rotl (c : Config) (a : Word) (n : Nat) : Word :=
  match c.xlen with
  | .rv32 => ((a.setWidth 32).rotateLeft n).setWidth 64
  | .rv64 => a.rotateLeft n

/-- `signed(a)` as an integer (00_scope.md R21). -/
def toS (c : Config) (a : Word) : Int := (c.sx a).toInt

/-- `unsigned(a)` as a natural number (00_scope.md R21). -/
def toU (c : Config) (a : Word) : Nat := (c.norm a).toNat

end Config

/-- `sext(a[7:0])`. -/
def sext8 (a : Word) : Word := (a.setWidth 8).signExtend 64

/-- `sext(a[15:0])`. -/
def sext16 (a : Word) : Word := (a.setWidth 16).signExtend 64

/-- `sext(a[31:0])`. -/
def sext32 (a : Word) : Word := (a.setWidth 32).signExtend 64

/-- `zext(a[7:0])`. -/
def zext8 (a : Word) : Word := (a.setWidth 8).setWidth 64

/-- `zext(a[15:0])`. -/
def zext16 (a : Word) : Word := (a.setWidth 16).setWidth 64

/-- `zext(a[31:0])`. -/
def zext32 (a : Word) : Word := (a.setWidth 32).setWidth 64

/-- 1 or 0. -/
def boolWord (b : Bool) : Word := if b then 1 else 0

/-! ### Division (42_m.md R321) -/

/-- Signed division towards zero; by zero it gives -1. The overflow case wraps when the result is narrowed. -/
def divS (a b : Int) : Int := if b = 0 then -1 else a.tdiv b

/-- The signed remainder; by zero it gives the dividend. -/
def remS (a b : Int) : Int := if b = 0 then a else a.tmod b

/-- Unsigned division of width `l`; by zero it gives all ones. -/
def divU (l a b : Nat) : Nat := if b = 0 then 2 ^ l - 1 else a / b

/-- The unsigned remainder; by zero it gives the dividend. -/
def remU (a b : Nat) : Nat := if b = 0 then a else a % b

/-! ### Bit counts, byte operations and the carry-less product (46_b.md R552, R583, R584) -/

/-- `clz_n(a)`. -/
def clz (a : Word) : Nat → Nat
  | 0 => 0
  | n + 1 => if a.getLsbD n then 0 else clz a n + 1

/-- `ctz_n(a)`. -/
def ctz (a : Word) : Nat → Nat
  | 0 => 0
  | n + 1 => if a.getLsbD 0 then 0 else ctz (a >>> 1) n + 1

/-- `popcount_n(a)`. -/
def popcount (a : Word) : Nat → Nat
  | 0 => 0
  | n + 1 => popcount a n + (a.getLsbD n).toNat

/-- Each of the `n` low bytes that is not zero made all ones. -/
def orcB (a : Word) : Nat → Word
  | 0 => 0
  | n + 1 => orcB (a >>> 8) n <<< 8 ||| (if a.setWidth 8 = 0#8 then 0 else 0xFF)

/-- The `n` low bytes in reverse order. -/
def rev8 (a : Word) : Nat → Word
  | 0 => 0
  | n + 1 => rev8 (a >>> 8) n ||| zext8 a <<< (8 * n)

/-- `clmul_wide_n(a, b)`. -/
def clmulWide (a b : Nat) : Nat → Nat
  | 0 => 0
  | n + 1 => clmulWide a b n ^^^ (if b.testBit n then a <<< n else 0)

namespace Machine

/-! ### Integer shapes -/

/-- The instruction of `n` bytes writes `x[rd]` and completes. -/
def put (n : Nat) (rd : Reg) (v : Word) (s : State) : Result := retire n (s.wx rd v)

/-- A jump to `t` that links in `rd` (40_rv_i.md R272). -/
def jump (n : Nat) (rd : Reg) (t : Word) (s : State) : Result :=
  if s.cfg.aligned t then retireAt t (s.wx rd (s.after n)) else raise .instructionAddressMisaligned t s

/-- A branch by `offset` (40_rv_i.md R272). -/
def branch (n : Nat) (taken : Bool) (offset : Word) (s : State) : Result :=
  if taken then
    if s.cfg.aligned (s.cfg.norm (s.pc + offset)) then retireAt (s.cfg.norm (s.pc + offset)) s
    else raise .instructionAddressMisaligned (s.cfg.norm (s.pc + offset)) s
  else retire n s

/-- `x[rs1] + offset` with bit 0 cleared (40_rv_i.md R274). -/
def State.jalrTarget (s : State) (rs1 : Reg) (offset : Word) : Word := s.ea rs1 offset &&& ~~~1#64

/-! ### Memory shapes -/

/-- A load of `n` bytes into `x[rd]` (40_rv_i.md R263). -/
def loadInt (len : Nat) (rd : Reg) (va : Word) (n : Nat) (ext : Word → Word) (s : State) : Result :=
  match s.read .load va n with
  | .error (e, tval) => raise e tval s
  | .ok v => put len rd (ext v) s

/-- A store of the low `n` bytes of `v` (40_rv_i.md R263). -/
def storeVal (len : Nat) (va : Word) (n : Nat) (v : Word) (s : State) : Result :=
  match s.write .store va n v with
  | .error (e, tval, t) => raise e tval t
  | .ok t => retire len t

/-! ### Floating-point shapes (44_fd.md R395, R404, R406) -/

/-- The bits of a 32-bit instruction. -/
def bitsOf (i : Instr) : Word := (encode i).bits

/-- The bits of a compressed instruction, zero-extended (60_exceptions.md R721 (c)). -/
def cbitsOf (i : CInstr) : Word := (i.encode).setWidth 64

/-- A result of a format goes to `f[rd]`, its flags to `fflags`, and the instruction completes. -/
def putFp (f : Fmt) (rd : Reg) (r : Word × Flags) (s : State) : Result :=
  retire 4 ((s.accrue r.2).wf rd (box f r.1))

/-- An integer result goes to `x[rd]`, its flags to `fflags`, and the instruction completes. -/
def putFpInt (rd : Reg) (r : Word × Flags) (s : State) : Result := put 4 rd r.1 (s.accrue r.2)

/-- A floating-point load (44_fd.md R404). -/
def loadFp (len : Nat) (bits : Word) (f : Fmt) (rd : Reg) (va : Word) (s : State) : Result :=
  fpGuard bits s
    (match s.read .load va f.bytes with
     | .error (e, tval) => raise e tval s
     | .ok v => retire len (s.wf rd (box f v)))

/-- A floating-point store (44_fd.md R404): the low bytes of `f[rs2]` without a box check. -/
def storeFp (len : Nat) (bits : Word) (f : Fmt) (rs2 : Reg) (va : Word) (s : State) : Result :=
  fpGuard bits s (storeVal len va f.bytes (s.rf rs2) s)

end Machine

end Sys2Proof
end

