-- ==== Sys2Proof/Machine/Atomic.lean ====
section
/-! DEFINITION. The A extension (43_a.md). `aq` and `rl` change nothing on one hart (R352; log 20). -/

namespace Sys2Proof.Machine

open Sys2Proof

/-- `lr` (43_a.md R353): the reservation is the effective address and the width. -/
def loadReserved (rd : Reg) (va : Word) (n : Nat) (ext : Word → Word) (s : State) : Result :=
  match s.read .lr va n with
  | .error (e, tval) => raise e tval s
  | .ok v => put 4 rd (ext v) { s with resv := some (va, n) }

/-- The reservation covers the bytes: they lie in the granule of its address (43_a.md R354, 20_memory.md R141). -/
def State.reserved (s : State) (va : Word) (n : Nat) : Bool :=
  match s.resv with
  | none => false
  | some (a, _) =>
    va.toNat / s.cfg.granule == a.toNat / s.cfg.granule &&
      (va.toNat + n - 1) / s.cfg.granule == a.toNat / s.cfg.granule

/-- `sc` (43_a.md R354, R355): it succeeds when the reservation covers the bytes and the draw allows it (log 8; that the
draw is fair is the assumption `FairRun`), and consumes the reservation either way. -/
def storeConditional (rd : Reg) (va : Word) (n : Nat) (v : Word) (s : State) : Result :=
  match s.alignedAddr .sc va n with
  | .error e => raise e va s
  | .ok pa =>
    if s.reserved va n && !Config.scFails s.draws then
      put 4 rd 0 { s.physWrite pa n v with resv := none }
    else put 4 rd 1 { s with resv := none }

/-- An AMO (43_a.md R357): the old value goes to `x[rd]`, sign-extended, and the new one to memory. -/
def amo (rd : Reg) (va : Word) (n : Nat) (ext : Word → Word) (op : Word → Word → Word) (v : Word) (s : State) :
    Result :=
  match s.alignedAddr .amo va n with
  | .error e => raise e va s
  | .ok pa => put 4 rd (ext (s.physRead .amo va none pa n)) (s.physWrite pa n (op (s.physRead .amo va none pa n) v))

/-- A 32-bit operator on the low words. -/
def onLow32 (op : BitVec 32 → BitVec 32 → BitVec 32) (t v : Word) : Word :=
  (op (t.setWidth 32) (v.setWidth 32)).setWidth 64

/-- `lr.w` (43_a.md R360). -/
def execLrW (_aq _rl : Bool) (rd rs1 : Reg) (s : State) : Result := loadReserved rd (s.rx rs1) 4 sext32 s

/-- `sc.w` (43_a.md R361). -/
def execScW (_aq _rl : Bool) (rd rs1 rs2 : Reg) (s : State) : Result := storeConditional rd (s.rx rs1) 4 (s.rx rs2) s

/-- `amoswap.w` (43_a.md R362). -/
def execAmoswapW (_aq _rl : Bool) (rd rs1 rs2 : Reg) (s : State) : Result :=
  amo rd (s.rx rs1) 4 sext32 (onLow32 (fun _ v => v)) (s.rx rs2) s

/-- `amoadd.w` (43_a.md R363). -/
def execAmoaddW (_aq _rl : Bool) (rd rs1 rs2 : Reg) (s : State) : Result :=
  amo rd (s.rx rs1) 4 sext32 (onLow32 (· + ·)) (s.rx rs2) s

/-- `amoxor.w` (43_a.md R364). -/
def execAmoxorW (_aq _rl : Bool) (rd rs1 rs2 : Reg) (s : State) : Result :=
  amo rd (s.rx rs1) 4 sext32 (onLow32 (· ^^^ ·)) (s.rx rs2) s

/-- `amoand.w` (43_a.md R365). -/
def execAmoandW (_aq _rl : Bool) (rd rs1 rs2 : Reg) (s : State) : Result :=
  amo rd (s.rx rs1) 4 sext32 (onLow32 (· &&& ·)) (s.rx rs2) s

/-- `amoor.w` (43_a.md R366). -/
def execAmoorW (_aq _rl : Bool) (rd rs1 rs2 : Reg) (s : State) : Result :=
  amo rd (s.rx rs1) 4 sext32 (onLow32 (· ||| ·)) (s.rx rs2) s

/-- `amomin.w` (43_a.md R367). -/
def execAmominW (_aq _rl : Bool) (rd rs1 rs2 : Reg) (s : State) : Result :=
  amo rd (s.rx rs1) 4 sext32 (onLow32 (fun t v => if t.slt v then t else v)) (s.rx rs2) s

/-- `amomax.w` (43_a.md R368). -/
def execAmomaxW (_aq _rl : Bool) (rd rs1 rs2 : Reg) (s : State) : Result :=
  amo rd (s.rx rs1) 4 sext32 (onLow32 (fun t v => if v.slt t then t else v)) (s.rx rs2) s

/-- `amominu.w` (43_a.md R369). -/
def execAmominuW (_aq _rl : Bool) (rd rs1 rs2 : Reg) (s : State) : Result :=
  amo rd (s.rx rs1) 4 sext32 (onLow32 (fun t v => if t.ult v then t else v)) (s.rx rs2) s

/-- `amomaxu.w` (43_a.md R370). -/
def execAmomaxuW (_aq _rl : Bool) (rd rs1 rs2 : Reg) (s : State) : Result :=
  amo rd (s.rx rs1) 4 sext32 (onLow32 (fun t v => if v.ult t then t else v)) (s.rx rs2) s

/-- `lr.d` (43_a.md R371). -/
def execLrD (_aq _rl : Bool) (rd rs1 : Reg) (s : State) : Result := loadReserved rd (s.rx rs1) 8 id s

/-- `sc.d` (43_a.md R372). -/
def execScD (_aq _rl : Bool) (rd rs1 rs2 : Reg) (s : State) : Result := storeConditional rd (s.rx rs1) 8 (s.rx rs2) s

/-- `amoswap.d` (43_a.md R373). -/
def execAmoswapD (_aq _rl : Bool) (rd rs1 rs2 : Reg) (s : State) : Result :=
  amo rd (s.rx rs1) 8 id (fun _ v => v) (s.rx rs2) s

/-- `amoadd.d` (43_a.md R374). -/
def execAmoaddD (_aq _rl : Bool) (rd rs1 rs2 : Reg) (s : State) : Result :=
  amo rd (s.rx rs1) 8 id (· + ·) (s.rx rs2) s

/-- `amoxor.d` (43_a.md R375). -/
def execAmoxorD (_aq _rl : Bool) (rd rs1 rs2 : Reg) (s : State) : Result :=
  amo rd (s.rx rs1) 8 id (· ^^^ ·) (s.rx rs2) s

/-- `amoand.d` (43_a.md R376). -/
def execAmoandD (_aq _rl : Bool) (rd rs1 rs2 : Reg) (s : State) : Result :=
  amo rd (s.rx rs1) 8 id (· &&& ·) (s.rx rs2) s

/-- `amoor.d` (43_a.md R377). -/
def execAmoorD (_aq _rl : Bool) (rd rs1 rs2 : Reg) (s : State) : Result :=
  amo rd (s.rx rs1) 8 id (· ||| ·) (s.rx rs2) s

/-- `amomin.d` (43_a.md R378). -/
def execAmominD (_aq _rl : Bool) (rd rs1 rs2 : Reg) (s : State) : Result :=
  amo rd (s.rx rs1) 8 id (fun t v => if t.slt v then t else v) (s.rx rs2) s

/-- `amomax.d` (43_a.md R379). -/
def execAmomaxD (_aq _rl : Bool) (rd rs1 rs2 : Reg) (s : State) : Result :=
  amo rd (s.rx rs1) 8 id (fun t v => if v.slt t then t else v) (s.rx rs2) s

/-- `amominu.d` (43_a.md R380). -/
def execAmominuD (_aq _rl : Bool) (rd rs1 rs2 : Reg) (s : State) : Result :=
  amo rd (s.rx rs1) 8 id (fun t v => if t.ult v then t else v) (s.rx rs2) s

/-- `amomaxu.d` (43_a.md R381). -/
def execAmomaxuD (_aq _rl : Bool) (rd rs1 rs2 : Reg) (s : State) : Result :=
  amo rd (s.rx rs1) 8 id (fun t v => if v.ult t then t else v) (s.rx rs2) s

end Sys2Proof.Machine
end

