-- ==== Sys2Proof/Machine/Bits.lean ====
section
/-! DEFINITION. Bit manipulation, Zba, Zbb, Zbc, Zbs (46_b.md), and Zicond (49_zicond.md). -/

namespace Sys2Proof.Machine

open Sys2Proof

/-- `add.uw` (46_b.md R553). -/
def execAddUw (rd rs1 rs2 : Reg) (s : State) : Result := put 4 rd (s.rx rs2 + zext32 (s.rx rs1)) s

/-- `sh1add` (46_b.md R554). -/
def execSh1add (rd rs1 rs2 : Reg) (s : State) : Result := put 4 rd (s.rx rs2 + s.rx rs1 <<< 1) s

/-- `sh2add` (46_b.md R556). -/
def execSh2add (rd rs1 rs2 : Reg) (s : State) : Result := put 4 rd (s.rx rs2 + s.rx rs1 <<< 2) s

/-- `sh3add` (46_b.md R558). -/
def execSh3add (rd rs1 rs2 : Reg) (s : State) : Result := put 4 rd (s.rx rs2 + s.rx rs1 <<< 3) s

/-- `sh1add.uw` (46_b.md R555). -/
def execSh1addUw (rd rs1 rs2 : Reg) (s : State) : Result := put 4 rd (s.rx rs2 + zext32 (s.rx rs1) <<< 1) s

/-- `sh2add.uw` (46_b.md R557). -/
def execSh2addUw (rd rs1 rs2 : Reg) (s : State) : Result := put 4 rd (s.rx rs2 + zext32 (s.rx rs1) <<< 2) s

/-- `sh3add.uw` (46_b.md R559). -/
def execSh3addUw (rd rs1 rs2 : Reg) (s : State) : Result := put 4 rd (s.rx rs2 + zext32 (s.rx rs1) <<< 3) s

/-- `slli.uw` (46_b.md R560). -/
def execSlliUw (rd rs1 : Reg) (shamt : BitVec 6) (s : State) : Result :=
  put 4 rd (zext32 (s.rx rs1) <<< shamt.toNat) s

/-- `andn` (46_b.md R561). -/
def execAndn (rd rs1 rs2 : Reg) (s : State) : Result := put 4 rd (s.rx rs1 &&& ~~~s.rx rs2) s

/-- `orn` (46_b.md R562). -/
def execOrn (rd rs1 rs2 : Reg) (s : State) : Result := put 4 rd (s.rx rs1 ||| ~~~s.rx rs2) s

/-- `xnor` (46_b.md R563). -/
def execXnor (rd rs1 rs2 : Reg) (s : State) : Result := put 4 rd (~~~(s.rx rs1 ^^^ s.rx rs2)) s

/-- `clz` (46_b.md R564). -/
def execClz (rd rs1 : Reg) (s : State) : Result := put 4 rd (BitVec.ofNat 64 (clz (s.rx rs1) s.cfg.xlen.bits)) s

/-- `clzw` (46_b.md R565). -/
def execClzw (rd rs1 : Reg) (s : State) : Result := put 4 rd (BitVec.ofNat 64 (clz (s.rx rs1) 32)) s

/-- `ctz` (46_b.md R566). -/
def execCtz (rd rs1 : Reg) (s : State) : Result := put 4 rd (BitVec.ofNat 64 (ctz (s.rx rs1) s.cfg.xlen.bits)) s

/-- `ctzw` (46_b.md R567). -/
def execCtzw (rd rs1 : Reg) (s : State) : Result := put 4 rd (BitVec.ofNat 64 (ctz (s.rx rs1) 32)) s

/-- `cpop` (46_b.md R568). -/
def execCpop (rd rs1 : Reg) (s : State) : Result := put 4 rd (BitVec.ofNat 64 (popcount (s.rx rs1) s.cfg.xlen.bits)) s

/-- `cpopw` (46_b.md R569). -/
def execCpopw (rd rs1 : Reg) (s : State) : Result := put 4 rd (BitVec.ofNat 64 (popcount (s.rx rs1) 32)) s

/-- `sext.b` (46_b.md R574). -/
def execSextB (rd rs1 : Reg) (s : State) : Result := put 4 rd (sext8 (s.rx rs1)) s

/-- `sext.h` (46_b.md R575). -/
def execSextH (rd rs1 : Reg) (s : State) : Result := put 4 rd (sext16 (s.rx rs1)) s

/-- `max` (46_b.md R570). -/
def execMax (rd rs1 rs2 : Reg) (s : State) : Result :=
  put 4 rd (if s.cfg.ltS (s.rx rs1) (s.rx rs2) then s.rx rs2 else s.rx rs1) s

/-- `maxu` (46_b.md R571). -/
def execMaxu (rd rs1 rs2 : Reg) (s : State) : Result :=
  put 4 rd (if s.cfg.ltU (s.rx rs1) (s.rx rs2) then s.rx rs2 else s.rx rs1) s

/-- `min` (46_b.md R572). -/
def execMin (rd rs1 rs2 : Reg) (s : State) : Result :=
  put 4 rd (if s.cfg.ltS (s.rx rs1) (s.rx rs2) then s.rx rs1 else s.rx rs2) s

/-- `minu` (46_b.md R573). -/
def execMinu (rd rs1 rs2 : Reg) (s : State) : Result :=
  put 4 rd (if s.cfg.ltU (s.rx rs1) (s.rx rs2) then s.rx rs1 else s.rx rs2) s

/-- `zext.h` (46_b.md R576). The encoding of XLEN = 32. -/
def execZextHRv32 (rd rs1 : Reg) (s : State) : Result := put 4 rd (zext16 (s.rx rs1)) s

/-- `zext.h` (46_b.md R576). The encoding of XLEN = 64. -/
def execZextHRv64 (rd rs1 : Reg) (s : State) : Result := put 4 rd (zext16 (s.rx rs1)) s

/-- `rol` (46_b.md R577). -/
def execRol (rd rs1 rs2 : Reg) (s : State) : Result :=
  put 4 rd (s.cfg.rotl (s.rx rs1) (s.cfg.shiftAmount (s.rx rs2))) s

/-- `rolw` (46_b.md R578). -/
def execRolw (rd rs1 rs2 : Reg) (s : State) : Result :=
  put 4 rd ((BitVec.rotateLeft ((s.rx rs1).setWidth 32) ((s.rx rs2).setWidth 5).toNat).signExtend 64) s

/-- `ror` (46_b.md R579). -/
def execRor (rd rs1 rs2 : Reg) (s : State) : Result :=
  put 4 rd (s.cfg.rotr (s.rx rs1) (s.cfg.shiftAmount (s.rx rs2))) s

/-- `rori` (46_b.md R580). -/
def execRori (rd rs1 : Reg) (shamt : BitVec 6) (s : State) : Result := put 4 rd (s.cfg.rotr (s.rx rs1) shamt.toNat) s

/-- `roriw` (46_b.md R581). -/
def execRoriw (rd rs1 : Reg) (shamt : BitVec 5) (s : State) : Result :=
  put 4 rd ((BitVec.rotateRight ((s.rx rs1).setWidth 32) shamt.toNat).signExtend 64) s

/-- `rorw` (46_b.md R582). -/
def execRorw (rd rs1 rs2 : Reg) (s : State) : Result :=
  put 4 rd ((BitVec.rotateRight ((s.rx rs1).setWidth 32) ((s.rx rs2).setWidth 5).toNat).signExtend 64) s

/-- `orc.b` (46_b.md R583). -/
def execOrcB (rd rs1 : Reg) (s : State) : Result := put 4 rd (orcB (s.rx rs1) s.cfg.xlen.bytes) s

/-- `rev8` (46_b.md R584). The encoding of XLEN = 32. -/
def execRev8Rv32 (rd rs1 : Reg) (s : State) : Result := put 4 rd (rev8 (s.rx rs1) 4) s

/-- `rev8` (46_b.md R584). The encoding of XLEN = 64. -/
def execRev8Rv64 (rd rs1 : Reg) (s : State) : Result := put 4 rd (rev8 (s.rx rs1) 8) s

/-- `clmul` (46_b.md R585). -/
def execClmul (rd rs1 rs2 : Reg) (s : State) : Result :=
  put 4 rd (BitVec.ofNat 64 (clmulWide (s.cfg.toU (s.rx rs1)) (s.cfg.toU (s.rx rs2)) s.cfg.xlen.bits)) s

/-- `clmulh` (46_b.md R586). -/
def execClmulh (rd rs1 rs2 : Reg) (s : State) : Result :=
  put 4 rd (BitVec.ofNat 64 (clmulWide (s.cfg.toU (s.rx rs1)) (s.cfg.toU (s.rx rs2)) s.cfg.xlen.bits >>> s.cfg.xlen.bits)) s

/-- `clmulr` (46_b.md R587). -/
def execClmulr (rd rs1 rs2 : Reg) (s : State) : Result :=
  put 4 rd (BitVec.ofNat 64 (clmulWide (s.cfg.toU (s.rx rs1)) (s.cfg.toU (s.rx rs2)) s.cfg.xlen.bits >>> (s.cfg.xlen.bits - 1))) s

/-- `bclr` (46_b.md R588). -/
def execBclr (rd rs1 rs2 : Reg) (s : State) : Result :=
  put 4 rd (s.rx rs1 &&& ~~~(1#64 <<< (s.cfg.shiftAmount (s.rx rs2)))) s

/-- `bext` (46_b.md R590). -/
def execBext (rd rs1 rs2 : Reg) (s : State) : Result := put 4 rd (s.rx rs1 >>> (s.cfg.shiftAmount (s.rx rs2)) &&& 1) s

/-- `binv` (46_b.md R592). -/
def execBinv (rd rs1 rs2 : Reg) (s : State) : Result :=
  put 4 rd (s.rx rs1 ^^^ 1#64 <<< (s.cfg.shiftAmount (s.rx rs2))) s

/-- `bset` (46_b.md R594). -/
def execBset (rd rs1 rs2 : Reg) (s : State) : Result :=
  put 4 rd (s.rx rs1 ||| 1#64 <<< (s.cfg.shiftAmount (s.rx rs2))) s

/-- `bclri` (46_b.md R589). -/
def execBclri (rd rs1 : Reg) (shamt : BitVec 6) (s : State) : Result :=
  put 4 rd (s.rx rs1 &&& ~~~(1#64 <<< shamt.toNat)) s

/-- `bexti` (46_b.md R591). -/
def execBexti (rd rs1 : Reg) (shamt : BitVec 6) (s : State) : Result := put 4 rd (s.rx rs1 >>> shamt.toNat &&& 1) s

/-- `binvi` (46_b.md R593). -/
def execBinvi (rd rs1 : Reg) (shamt : BitVec 6) (s : State) : Result := put 4 rd (s.rx rs1 ^^^ 1#64 <<< shamt.toNat) s

/-- `bseti` (46_b.md R595). -/
def execBseti (rd rs1 : Reg) (shamt : BitVec 6) (s : State) : Result := put 4 rd (s.rx rs1 ||| 1#64 <<< shamt.toNat) s

/-- `czero.eqz` (49_zicond.md R711). -/
def execCzeroEqz (rd rs1 rs2 : Reg) (s : State) : Result := put 4 rd (if s.rx rs2 = 0 then 0 else s.rx rs1) s

/-- `czero.nez` (49_zicond.md R712). -/
def execCzeroNez (rd rs1 rs2 : Reg) (s : State) : Result := put 4 rd (if s.rx rs2 ≠ 0 then 0 else s.rx rs1) s

end Sys2Proof.Machine
end

