-- ==== Sys2Proof/Machine/System.lean ====
section
/-! DEFINITION. Fences, CSR instructions, traps and the privileged instructions (40_rv_i.md R245 to R262). -/

namespace Sys2Proof.Machine

open Sys2Proof

/-- `fence` (40_rv_i.md R245). With one hart and no observing device it has no effect (log 20). -/
def execFence (_fm _pred _succ : BitVec 4) (_rs1 _rd : Reg) (s : State) : Result := retire 4 s

/-- `fence.i` (40_rv_i.md R246). Fetch is coherent with the stores of the hart, so it has no effect (20_memory.md R135 (a); log 7). -/
def execFenceI (_imm : BitVec 12) (_rs1 _rd : Reg) (s : State) : Result := retire 4 s

/-- `csrrw` (40_rv_i.md R251). -/
def execCsrrw (rd rs1 : Reg) (csr : BitVec 12) (s : State) : Result :=
  csrInstr (bitsOf (.csrrw rd rs1 csr)) .write rd csr (s.rx rs1) true s

/-- `csrrs` (40_rv_i.md R252). -/
def execCsrrs (rd rs1 : Reg) (csr : BitVec 12) (s : State) : Result :=
  csrInstr (bitsOf (.csrrs rd rs1 csr)) .set rd csr (s.rx rs1) (rs1 != 0#5) s

/-- `csrrc` (40_rv_i.md R253). -/
def execCsrrc (rd rs1 : Reg) (csr : BitVec 12) (s : State) : Result :=
  csrInstr (bitsOf (.csrrc rd rs1 csr)) .clear rd csr (s.rx rs1) (rs1 != 0#5) s

/-- `csrrwi` (40_rv_i.md R254). -/
def execCsrrwi (rd : Reg) (uimm : BitVec 5) (csr : BitVec 12) (s : State) : Result :=
  csrInstr (bitsOf (.csrrwi rd uimm csr)) .write rd csr (uimm.setWidth 64) true s

/-- `csrrsi` (40_rv_i.md R255). -/
def execCsrrsi (rd : Reg) (uimm : BitVec 5) (csr : BitVec 12) (s : State) : Result :=
  csrInstr (bitsOf (.csrrsi rd uimm csr)) .set rd csr (uimm.setWidth 64) (uimm != 0#5) s

/-- `csrrci` (40_rv_i.md R256). -/
def execCsrrci (rd : Reg) (uimm : BitVec 5) (csr : BitVec 12) (s : State) : Result :=
  csrInstr (bitsOf (.csrrci rd uimm csr)) .clear rd csr (uimm.setWidth 64) (uimm != 0#5) s

/-- The environment call of the current mode (60_exceptions.md R725). -/
def ecallExc : Priv → Exc
  | .u => .ecallFromU
  | .s => .ecallFromS
  | .m => .ecallFromM

/-- `ecall` (40_rv_i.md R257). -/
def execEcall (s : State) : Result := raise (ecallExc s.priv) 0 s

/-- The trap value of a breakpoint, by EBREAK_TVAL (60_exceptions.md R728). -/
def State.breakpointTval (s : State) : Word :=
  match s.cfg.ebreakTval with
  | .pc => s.pc
  | .zero => 0

/-- `ebreak` (40_rv_i.md R258). -/
def execEbreak (s : State) : Result := raise .breakpoint s.breakpointTval s

/-- `sret` (40_rv_i.md R259). Its effect is 60_exceptions.md R751. -/
def execSret (s : State) : Result :=
  if s.cfg.extS && (s.priv == .m || (s.priv == .s && !s.csr.mstatus.tsr)) then .next s.sret.count
  else illegal (bitsOf .sret) s

/-- `mret` (40_rv_i.md R260). Its effect is 60_exceptions.md R750. -/
def execMret (s : State) : Result := if s.priv == .m then .next s.mret.count else illegal (bitsOf .mret) s

/-- `wfi` is legal (60_exceptions.md R765). -/
def State.wfiLegal (s : State) : Bool :=
  match s.priv with
  | .m => true
  | .s => !s.csr.mstatus.tw
  | .u => !s.csr.mstatus.tw && s.cfg.wfiU

/-- `wfi` (40_rv_i.md R261). Whether it waits is a free value (60_exceptions.md R765; log 11). -/
def execWfi (s : State) : Result :=
  if s.wfiLegal then retire 4 { s with waiting := Config.wfiWaits s.draws }
  else illegal (bitsOf .wfi) s

/-- `sfence.vma` (40_rv_i.md R262). Translation reads memory on every access, so past its check it has no effect (20_memory.md R137; log 7). -/
def execSfenceVma (rs1 rs2 : Reg) (s : State) : Result :=
  if s.cfg.extS && (s.priv == .m || (s.priv == .s && !s.csr.mstatus.tvm)) then retire 4 s
  else illegal (bitsOf (.sfence_vma rs1 rs2)) s

end Sys2Proof.Machine
end

