-- ==== Sys2Proof/Machine/Compressed.lean ====
section
/-! DEFINITION. The C extension (45_c.md): each instruction as its expansion, two bytes long (R480). -/

namespace Sys2Proof.Machine

open Sys2Proof

/-- `c.addi4spn` (45_c.md R490). -/
def execCAddi4spn (rd : CReg) (imm : BitVec 8) (s : State) : Result := put 2 rd.reg (s.rx State.sp + uimm4 imm) s

/-- `c.fld` (45_c.md R491). -/
def execCFld (rd rs1 : CReg) (uimm : BitVec 5) (s : State) : Result :=
  loadFp 2 (cbitsOf (.c_fld rd rs1 uimm)) .d rd.reg (s.ea rs1.reg (uimm8 uimm)) s

/-- `c.lw` (45_c.md R492). -/
def execCLw (rd rs1 : CReg) (uimm : BitVec 5) (s : State) : Result :=
  loadInt 2 rd.reg (s.ea rs1.reg (uimm4 uimm)) 4 sext32 s

/-- `c.flw` (45_c.md R493). -/
def execCFlw (rd rs1 : CReg) (uimm : BitVec 5) (s : State) : Result :=
  loadFp 2 (cbitsOf (.c_flw rd rs1 uimm)) .s rd.reg (s.ea rs1.reg (uimm4 uimm)) s

/-- `c.ld` (45_c.md R494). -/
def execCLd (rd rs1 : CReg) (uimm : BitVec 5) (s : State) : Result :=
  loadInt 2 rd.reg (s.ea rs1.reg (uimm8 uimm)) 8 id s

/-- `c.fsd` (45_c.md R495). -/
def execCFsd (rs1 rs2 : CReg) (uimm : BitVec 5) (s : State) : Result :=
  storeFp 2 (cbitsOf (.c_fsd rs1 rs2 uimm)) .d rs2.reg (s.ea rs1.reg (uimm8 uimm)) s

/-- `c.sw` (45_c.md R496). -/
def execCSw (rs1 rs2 : CReg) (uimm : BitVec 5) (s : State) : Result :=
  storeVal 2 (s.ea rs1.reg (uimm4 uimm)) 4 (s.rx rs2.reg) s

/-- `c.fsw` (45_c.md R497). -/
def execCFsw (rs1 rs2 : CReg) (uimm : BitVec 5) (s : State) : Result :=
  storeFp 2 (cbitsOf (.c_fsw rs1 rs2 uimm)) .s rs2.reg (s.ea rs1.reg (uimm4 uimm)) s

/-- `c.sd` (45_c.md R498). -/
def execCSd (rs1 rs2 : CReg) (uimm : BitVec 5) (s : State) : Result :=
  storeVal 2 (s.ea rs1.reg (uimm8 uimm)) 8 (s.rx rs2.reg) s

/-- `c.nop` (45_c.md R499). With a non-zero immediate it is a hint. -/
def execCNop (_imm : BitVec 6) (s : State) : Result := retire 2 s

/-- `c.addi` (45_c.md R500). -/
def execCAddi (rd : Reg) (imm : BitVec 6) (s : State) : Result := put 2 rd (s.rx rd + imm6 imm) s

/-- `c.jal` (45_c.md R501). -/
def execCJal (imm : BitVec 11) (s : State) : Result := jump 2 State.ra (s.cfg.norm (s.pc + immCJ imm)) s

/-- `c.addiw` (45_c.md R502). -/
def execCAddiw (rd : Reg) (imm : BitVec 6) (s : State) : Result := put 2 rd (sext32 (s.rx rd + imm6 imm)) s

/-- `c.li` (45_c.md R503). -/
def execCLi (rd : Reg) (imm : BitVec 6) (s : State) : Result := put 2 rd (imm6 imm) s

/-- `c.addi16sp` (45_c.md R504). -/
def execCAddi16sp (imm : BitVec 6) (s : State) : Result := put 2 State.sp (s.rx State.sp + imm16sp imm) s

/-- `c.lui` (45_c.md R505). -/
def execCLui (rd : Reg) (imm : BitVec 6) (s : State) : Result := put 2 rd (immCLui imm) s

/-- `c.srli` (45_c.md R506). -/
def execCSrli (rd : CReg) (shamt : BitVec 6) (s : State) : Result :=
  put 2 rd.reg (s.cfg.srl (s.rx rd.reg) shamt.toNat) s

/-- `c.srai` (45_c.md R507). -/
def execCSrai (rd : CReg) (shamt : BitVec 6) (s : State) : Result :=
  put 2 rd.reg (s.cfg.sra (s.rx rd.reg) shamt.toNat) s

/-- `c.andi` (45_c.md R508). -/
def execCAndi (rd : CReg) (imm : BitVec 6) (s : State) : Result := put 2 rd.reg (s.rx rd.reg &&& imm6 imm) s

/-- `c.sub` (45_c.md R509). -/
def execCSub (rd rs2 : CReg) (s : State) : Result := put 2 rd.reg (s.rx rd.reg - s.rx rs2.reg) s

/-- `c.xor` (45_c.md R510). -/
def execCXor (rd rs2 : CReg) (s : State) : Result := put 2 rd.reg (s.rx rd.reg ^^^ s.rx rs2.reg) s

/-- `c.or` (45_c.md R511). -/
def execCOr (rd rs2 : CReg) (s : State) : Result := put 2 rd.reg (s.rx rd.reg ||| s.rx rs2.reg) s

/-- `c.and` (45_c.md R512). -/
def execCAnd (rd rs2 : CReg) (s : State) : Result := put 2 rd.reg (s.rx rd.reg &&& s.rx rs2.reg) s

/-- `c.subw` (45_c.md R513). -/
def execCSubw (rd rs2 : CReg) (s : State) : Result := put 2 rd.reg (sext32 (s.rx rd.reg - s.rx rs2.reg)) s

/-- `c.addw` (45_c.md R514). -/
def execCAddw (rd rs2 : CReg) (s : State) : Result := put 2 rd.reg (sext32 (s.rx rd.reg + s.rx rs2.reg)) s

/-- `c.j` (45_c.md R515). -/
def execCJ (imm : BitVec 11) (s : State) : Result := jump 2 0 (s.cfg.norm (s.pc + immCJ imm)) s

/-- `c.beqz` (45_c.md R516). -/
def execCBeqz (rs1 : CReg) (imm : BitVec 8) (s : State) : Result := branch 2 (s.rx rs1.reg == 0) (immCB imm) s

/-- `c.bnez` (45_c.md R517). -/
def execCBnez (rs1 : CReg) (imm : BitVec 8) (s : State) : Result := branch 2 (s.rx rs1.reg != 0) (immCB imm) s

/-- `c.slli` (45_c.md R518). -/
def execCSlli (rd : Reg) (shamt : BitVec 6) (s : State) : Result := put 2 rd (s.rx rd <<< shamt.toNat) s

/-- `c.fldsp` (45_c.md R519). -/
def execCFldsp (rd : Reg) (uimm : BitVec 6) (s : State) : Result :=
  loadFp 2 (cbitsOf (.c_fldsp rd uimm)) .d rd (s.ea State.sp (uimm8 uimm)) s

/-- `c.lwsp` (45_c.md R520). -/
def execCLwsp (rd : Reg) (uimm : BitVec 6) (s : State) : Result :=
  loadInt 2 rd (s.ea State.sp (uimm4 uimm)) 4 sext32 s

/-- `c.flwsp` (45_c.md R521). -/
def execCFlwsp (rd : Reg) (uimm : BitVec 6) (s : State) : Result :=
  loadFp 2 (cbitsOf (.c_flwsp rd uimm)) .s rd (s.ea State.sp (uimm4 uimm)) s

/-- `c.ldsp` (45_c.md R522). -/
def execCLdsp (rd : Reg) (uimm : BitVec 6) (s : State) : Result := loadInt 2 rd (s.ea State.sp (uimm8 uimm)) 8 id s

/-- `c.jr` (45_c.md R523). -/
def execCJr (rs1 : Reg) (s : State) : Result := jump 2 0 (s.jalrTarget rs1 0) s

/-- `c.mv` (45_c.md R524). -/
def execCMv (rd rs2 : Reg) (s : State) : Result := put 2 rd (s.rx rs2) s

/-- `c.ebreak` (45_c.md R525). -/
def execCEbreak (s : State) : Result := raise .breakpoint s.breakpointTval s

/-- `c.jalr` (45_c.md R526). -/
def execCJalr (rs1 : Reg) (s : State) : Result := jump 2 State.ra (s.jalrTarget rs1 0) s

/-- `c.add` (45_c.md R527). -/
def execCAdd (rd rs2 : Reg) (s : State) : Result := put 2 rd (s.rx rd + s.rx rs2) s

/-- `c.fsdsp` (45_c.md R528). -/
def execCFsdsp (rs2 : Reg) (uimm : BitVec 6) (s : State) : Result :=
  storeFp 2 (cbitsOf (.c_fsdsp rs2 uimm)) .d rs2 (s.ea State.sp (uimm8 uimm)) s

/-- `c.swsp` (45_c.md R529). -/
def execCSwsp (rs2 : Reg) (uimm : BitVec 6) (s : State) : Result :=
  storeVal 2 (s.ea State.sp (uimm4 uimm)) 4 (s.rx rs2) s

/-- `c.fswsp` (45_c.md R530). -/
def execCFswsp (rs2 : Reg) (uimm : BitVec 6) (s : State) : Result :=
  storeFp 2 (cbitsOf (.c_fswsp rs2 uimm)) .s rs2 (s.ea State.sp (uimm4 uimm)) s

/-- `c.sdsp` (45_c.md R531). -/
def execCSdsp (rs2 : Reg) (uimm : BitVec 6) (s : State) : Result :=
  storeVal 2 (s.ea State.sp (uimm8 uimm)) 8 (s.rx rs2) s

end Sys2Proof.Machine
end

