-- ==== Sys2Proof/Machine/Control.lean ====
section
/-! DEFINITION. Jumps and branches (40_rv_i.md R272 to R280). -/

namespace Sys2Proof.Machine

open Sys2Proof

/-- `jal` (40_rv_i.md R273). -/
def execJal (rd : Reg) (imm : BitVec 20) (s : State) : Result := jump 4 rd (s.cfg.norm (s.pc + immJ imm)) s

/-- `jalr` (40_rv_i.md R274). -/
def execJalr (rd rs1 : Reg) (imm : BitVec 12) (s : State) : Result := jump 4 rd (s.jalrTarget rs1 (imm12 imm)) s

/-- `beq` (40_rv_i.md R275). -/
def execBeq (rs1 rs2 : Reg) (imm : BitVec 12) (s : State) : Result := branch 4 (s.rx rs1 == s.rx rs2) (immB imm) s

/-- `bne` (40_rv_i.md R276). -/
def execBne (rs1 rs2 : Reg) (imm : BitVec 12) (s : State) : Result := branch 4 (s.rx rs1 != s.rx rs2) (immB imm) s

/-- `blt` (40_rv_i.md R277). -/
def execBlt (rs1 rs2 : Reg) (imm : BitVec 12) (s : State) : Result :=
  branch 4 (s.cfg.ltS (s.rx rs1) (s.rx rs2)) (immB imm) s

/-- `bge` (40_rv_i.md R278). -/
def execBge (rs1 rs2 : Reg) (imm : BitVec 12) (s : State) : Result :=
  branch 4 (!s.cfg.ltS (s.rx rs1) (s.rx rs2)) (immB imm) s

/-- `bltu` (40_rv_i.md R279). -/
def execBltu (rs1 rs2 : Reg) (imm : BitVec 12) (s : State) : Result :=
  branch 4 (s.cfg.ltU (s.rx rs1) (s.rx rs2)) (immB imm) s

/-- `bgeu` (40_rv_i.md R280). -/
def execBgeu (rs1 rs2 : Reg) (imm : BitVec 12) (s : State) : Result :=
  branch 4 (!s.cfg.ltU (s.rx rs1) (s.rx rs2)) (immB imm) s

end Sys2Proof.Machine
end

