-- ==== Sys2Proof/Machine/FloatDouble.lean ====
section
/-! DEFINITION. The D extension (44_fd.md R434 to R457, R460, R461, R466 to R471). -/

namespace Sys2Proof.Machine

open Sys2Proof

/-- `fmadd.d` (44_fd.md R434). -/
def execFmaddD (rd rs1 rs2 rs3 : Reg) (rm : BitVec 3) (s : State) : Result :=
  fpRounded (bitsOf (.fmadd_d rd rs1 rs2 rs3 rm)) rm s fun mode =>
    putFp .d rd (fpMadd .d mode (s.fv .d rs1) (s.fv .d rs2) (s.fv .d rs3)) s

/-- `fmsub.d` (44_fd.md R435). -/
def execFmsubD (rd rs1 rs2 rs3 : Reg) (rm : BitVec 3) (s : State) : Result :=
  fpRounded (bitsOf (.fmsub_d rd rs1 rs2 rs3 rm)) rm s fun mode =>
    putFp .d rd (fpMsub .d mode (s.fv .d rs1) (s.fv .d rs2) (s.fv .d rs3)) s

/-- `fnmsub.d` (44_fd.md R436). -/
def execFnmsubD (rd rs1 rs2 rs3 : Reg) (rm : BitVec 3) (s : State) : Result :=
  fpRounded (bitsOf (.fnmsub_d rd rs1 rs2 rs3 rm)) rm s fun mode =>
    putFp .d rd (fpNmsub .d mode (s.fv .d rs1) (s.fv .d rs2) (s.fv .d rs3)) s

/-- `fnmadd.d` (44_fd.md R437). -/
def execFnmaddD (rd rs1 rs2 rs3 : Reg) (rm : BitVec 3) (s : State) : Result :=
  fpRounded (bitsOf (.fnmadd_d rd rs1 rs2 rs3 rm)) rm s fun mode =>
    putFp .d rd (fpNmadd .d mode (s.fv .d rs1) (s.fv .d rs2) (s.fv .d rs3)) s

/-- `fadd.d` (44_fd.md R438). -/
def execFaddD (rd rs1 rs2 : Reg) (rm : BitVec 3) (s : State) : Result :=
  fpRounded (bitsOf (.fadd_d rd rs1 rs2 rm)) rm s fun mode =>
    putFp .d rd (fpAdd .d mode (s.fv .d rs1) (s.fv .d rs2)) s

/-- `fsub.d` (44_fd.md R439). -/
def execFsubD (rd rs1 rs2 : Reg) (rm : BitVec 3) (s : State) : Result :=
  fpRounded (bitsOf (.fsub_d rd rs1 rs2 rm)) rm s fun mode =>
    putFp .d rd (fpSub .d mode (s.fv .d rs1) (s.fv .d rs2)) s

/-- `fmul.d` (44_fd.md R440). -/
def execFmulD (rd rs1 rs2 : Reg) (rm : BitVec 3) (s : State) : Result :=
  fpRounded (bitsOf (.fmul_d rd rs1 rs2 rm)) rm s fun mode =>
    putFp .d rd (fpMul .d mode (s.fv .d rs1) (s.fv .d rs2)) s

/-- `fdiv.d` (44_fd.md R441). -/
def execFdivD (rd rs1 rs2 : Reg) (rm : BitVec 3) (s : State) : Result :=
  fpRounded (bitsOf (.fdiv_d rd rs1 rs2 rm)) rm s fun mode =>
    putFp .d rd (fpDiv .d mode (s.fv .d rs1) (s.fv .d rs2)) s

/-- `fsqrt.d` (44_fd.md R442). -/
def execFsqrtD (rd rs1 : Reg) (rm : BitVec 3) (s : State) : Result :=
  fpRounded (bitsOf (.fsqrt_d rd rs1 rm)) rm s fun mode =>
    putFp .d rd (fpSqrt .d mode (s.fv .d rs1)) s

/-- `fsgnj.d` (44_fd.md R443). -/
def execFsgnjD (rd rs1 rs2 : Reg) (s : State) : Result :=
  fpGuard (bitsOf (.fsgnj_d rd rs1 rs2)) s
    (putFp .d rd (fpSgnj .d (s.fv .d rs1) (s.fv .d rs2), 0) s)

/-- `fsgnjn.d` (44_fd.md R444). -/
def execFsgnjnD (rd rs1 rs2 : Reg) (s : State) : Result :=
  fpGuard (bitsOf (.fsgnjn_d rd rs1 rs2)) s
    (putFp .d rd (fpSgnjn .d (s.fv .d rs1) (s.fv .d rs2), 0) s)

/-- `fsgnjx.d` (44_fd.md R445). -/
def execFsgnjxD (rd rs1 rs2 : Reg) (s : State) : Result :=
  fpGuard (bitsOf (.fsgnjx_d rd rs1 rs2)) s
    (putFp .d rd (fpSgnjx .d (s.fv .d rs1) (s.fv .d rs2), 0) s)

/-- `fmin.d` (44_fd.md R446). -/
def execFminD (rd rs1 rs2 : Reg) (s : State) : Result :=
  fpGuard (bitsOf (.fmin_d rd rs1 rs2)) s
    (putFp .d rd (fpMin .d (s.fv .d rs1) (s.fv .d rs2)) s)

/-- `fmax.d` (44_fd.md R447). -/
def execFmaxD (rd rs1 rs2 : Reg) (s : State) : Result :=
  fpGuard (bitsOf (.fmax_d rd rs1 rs2)) s
    (putFp .d rd (fpMax .d (s.fv .d rs1) (s.fv .d rs2)) s)

/-- `feq.d` (44_fd.md R450). -/
def execFeqD (rd rs1 rs2 : Reg) (s : State) : Result :=
  fpGuard (bitsOf (.feq_d rd rs1 rs2)) s
    (putFpInt rd (fpEq .d (s.fv .d rs1) (s.fv .d rs2)) s)

/-- `flt.d` (44_fd.md R451). -/
def execFltD (rd rs1 rs2 : Reg) (s : State) : Result :=
  fpGuard (bitsOf (.flt_d rd rs1 rs2)) s
    (putFpInt rd (fpLt s.cfg .d (s.fv .d rs1) (s.fv .d rs2)) s)

/-- `fle.d` (44_fd.md R452). -/
def execFleD (rd rs1 rs2 : Reg) (s : State) : Result :=
  fpGuard (bitsOf (.fle_d rd rs1 rs2)) s
    (putFpInt rd (fpLe s.cfg .d (s.fv .d rs1) (s.fv .d rs2)) s)

/-- `fclass.d` (44_fd.md R453). -/
def execFclassD (rd rs1 : Reg) (s : State) : Result :=
  fpGuard (bitsOf (.fclass_d rd rs1)) s
    (putFpInt rd (fpClass .d (s.fv .d rs1), 0) s)

/-- `fcvt.w.d` (44_fd.md R454). -/
def execFcvtWD (rd rs1 : Reg) (rm : BitVec 3) (s : State) : Result :=
  fpRounded (bitsOf (.fcvt_w_d rd rs1 rm)) rm s fun mode =>
    putFpInt rd (fpToInt .d .w mode (s.fv .d rs1)) s

/-- `fcvt.wu.d` (44_fd.md R455). -/
def execFcvtWuD (rd rs1 : Reg) (rm : BitVec 3) (s : State) : Result :=
  fpRounded (bitsOf (.fcvt_wu_d rd rs1 rm)) rm s fun mode =>
    putFpInt rd (fpToInt .d .wu mode (s.fv .d rs1)) s

/-- `fcvt.l.d` (44_fd.md R466). -/
def execFcvtLD (rd rs1 : Reg) (rm : BitVec 3) (s : State) : Result :=
  fpRounded (bitsOf (.fcvt_l_d rd rs1 rm)) rm s fun mode =>
    putFpInt rd (fpToInt .d .l mode (s.fv .d rs1)) s

/-- `fcvt.lu.d` (44_fd.md R467). -/
def execFcvtLuD (rd rs1 : Reg) (rm : BitVec 3) (s : State) : Result :=
  fpRounded (bitsOf (.fcvt_lu_d rd rs1 rm)) rm s fun mode =>
    putFpInt rd (fpToInt .d .lu mode (s.fv .d rs1)) s

/-- `fcvt.d.w` (44_fd.md R456). -/
def execFcvtDW (rd rs1 : Reg) (rm : BitVec 3) (s : State) : Result :=
  fpRounded (bitsOf (.fcvt_d_w rd rs1 rm)) rm s fun mode =>
    putFp .d rd (fpOfInt .d mode (((s.rx rs1).setWidth 32).toInt)) s

/-- `fcvt.d.wu` (44_fd.md R457). -/
def execFcvtDWu (rd rs1 : Reg) (rm : BitVec 3) (s : State) : Result :=
  fpRounded (bitsOf (.fcvt_d_wu rd rs1 rm)) rm s fun mode =>
    putFp .d rd (fpOfInt .d mode (((s.rx rs1).setWidth 32).toNat)) s

/-- `fcvt.d.l` (44_fd.md R469). -/
def execFcvtDL (rd rs1 : Reg) (rm : BitVec 3) (s : State) : Result :=
  fpRounded (bitsOf (.fcvt_d_l rd rs1 rm)) rm s fun mode =>
    putFp .d rd (fpOfInt .d mode ((s.rx rs1).toInt)) s

/-- `fcvt.d.lu` (44_fd.md R470). -/
def execFcvtDLu (rd rs1 : Reg) (rm : BitVec 3) (s : State) : Result :=
  fpRounded (bitsOf (.fcvt_d_lu rd rs1 rm)) rm s fun mode =>
    putFp .d rd (fpOfInt .d mode ((s.rx rs1).toNat)) s

/-- `fcvt.s.d` (44_fd.md R448). -/
def execFcvtSD (rd rs1 : Reg) (rm : BitVec 3) (s : State) : Result :=
  fpRounded (bitsOf (.fcvt_s_d rd rs1 rm)) rm s fun mode =>
    putFp .s rd (fpConvert .d .s mode (s.fv .d rs1)) s

/-- `fcvt.d.s` (44_fd.md R449). -/
def execFcvtDS (rd rs1 : Reg) (rm : BitVec 3) (s : State) : Result :=
  fpRounded (bitsOf (.fcvt_d_s rd rs1 rm)) rm s fun mode =>
    putFp .d rd (fpConvert .s .d mode (s.fv .s rs1)) s

/-- `fmv.x.d` (44_fd.md R468). -/
def execFmvXD (rd rs1 : Reg) (s : State) : Result :=
  fpGuard (bitsOf (.fmv_x_d rd rs1)) s
    (put 4 rd (s.rf rs1) s)

/-- `fmv.d.x` (44_fd.md R471). -/
def execFmvDX (rd rs1 : Reg) (s : State) : Result :=
  fpGuard (bitsOf (.fmv_d_x rd rs1)) s
    (retire 4 (s.wf rd (s.rx rs1)))

/-- `fld` (44_fd.md R460). -/
def execFld (rd rs1 : Reg) (imm : BitVec 12) (s : State) : Result :=
  loadFp 4 (bitsOf (.fld rd rs1 imm)) .d rd (s.ea rs1 (imm12 imm)) s

/-- `fsd` (44_fd.md R461). -/
def execFsd (rs1 rs2 : Reg) (imm : BitVec 12) (s : State) : Result :=
  storeFp 4 (bitsOf (.fsd rs1 rs2 imm)) .d rs2 (s.ea rs1 (imm12 imm)) s

end Sys2Proof.Machine
end

