-- ==== Sys2Proof/Machine/FloatHalf.lean ====
section
/-! DEFINITION. The Zfh extension (47_zfh.md). -/

namespace Sys2Proof.Machine

open Sys2Proof

/-- `fmadd.h` (47_zfh.md R622). -/
def execFmaddH (rd rs1 rs2 rs3 : Reg) (rm : BitVec 3) (s : State) : Result :=
  fpRounded (bitsOf (.fmadd_h rd rs1 rs2 rs3 rm)) rm s fun mode =>
    putFp .h rd (fpMadd .h mode (s.fv .h rs1) (s.fv .h rs2) (s.fv .h rs3)) s

/-- `fmsub.h` (47_zfh.md R623). -/
def execFmsubH (rd rs1 rs2 rs3 : Reg) (rm : BitVec 3) (s : State) : Result :=
  fpRounded (bitsOf (.fmsub_h rd rs1 rs2 rs3 rm)) rm s fun mode =>
    putFp .h rd (fpMsub .h mode (s.fv .h rs1) (s.fv .h rs2) (s.fv .h rs3)) s

/-- `fnmsub.h` (47_zfh.md R624). -/
def execFnmsubH (rd rs1 rs2 rs3 : Reg) (rm : BitVec 3) (s : State) : Result :=
  fpRounded (bitsOf (.fnmsub_h rd rs1 rs2 rs3 rm)) rm s fun mode =>
    putFp .h rd (fpNmsub .h mode (s.fv .h rs1) (s.fv .h rs2) (s.fv .h rs3)) s

/-- `fnmadd.h` (47_zfh.md R625). -/
def execFnmaddH (rd rs1 rs2 rs3 : Reg) (rm : BitVec 3) (s : State) : Result :=
  fpRounded (bitsOf (.fnmadd_h rd rs1 rs2 rs3 rm)) rm s fun mode =>
    putFp .h rd (fpNmadd .h mode (s.fv .h rs1) (s.fv .h rs2) (s.fv .h rs3)) s

/-- `fadd.h` (47_zfh.md R626). -/
def execFaddH (rd rs1 rs2 : Reg) (rm : BitVec 3) (s : State) : Result :=
  fpRounded (bitsOf (.fadd_h rd rs1 rs2 rm)) rm s fun mode =>
    putFp .h rd (fpAdd .h mode (s.fv .h rs1) (s.fv .h rs2)) s

/-- `fsub.h` (47_zfh.md R627). -/
def execFsubH (rd rs1 rs2 : Reg) (rm : BitVec 3) (s : State) : Result :=
  fpRounded (bitsOf (.fsub_h rd rs1 rs2 rm)) rm s fun mode =>
    putFp .h rd (fpSub .h mode (s.fv .h rs1) (s.fv .h rs2)) s

/-- `fmul.h` (47_zfh.md R628). -/
def execFmulH (rd rs1 rs2 : Reg) (rm : BitVec 3) (s : State) : Result :=
  fpRounded (bitsOf (.fmul_h rd rs1 rs2 rm)) rm s fun mode =>
    putFp .h rd (fpMul .h mode (s.fv .h rs1) (s.fv .h rs2)) s

/-- `fdiv.h` (47_zfh.md R629). -/
def execFdivH (rd rs1 rs2 : Reg) (rm : BitVec 3) (s : State) : Result :=
  fpRounded (bitsOf (.fdiv_h rd rs1 rs2 rm)) rm s fun mode =>
    putFp .h rd (fpDiv .h mode (s.fv .h rs1) (s.fv .h rs2)) s

/-- `fsqrt.h` (47_zfh.md R630). -/
def execFsqrtH (rd rs1 : Reg) (rm : BitVec 3) (s : State) : Result :=
  fpRounded (bitsOf (.fsqrt_h rd rs1 rm)) rm s fun mode =>
    putFp .h rd (fpSqrt .h mode (s.fv .h rs1)) s

/-- `fsgnj.h` (47_zfh.md R631). -/
def execFsgnjH (rd rs1 rs2 : Reg) (s : State) : Result :=
  fpGuard (bitsOf (.fsgnj_h rd rs1 rs2)) s
    (putFp .h rd (fpSgnj .h (s.fv .h rs1) (s.fv .h rs2), 0) s)

/-- `fsgnjn.h` (47_zfh.md R632). -/
def execFsgnjnH (rd rs1 rs2 : Reg) (s : State) : Result :=
  fpGuard (bitsOf (.fsgnjn_h rd rs1 rs2)) s
    (putFp .h rd (fpSgnjn .h (s.fv .h rs1) (s.fv .h rs2), 0) s)

/-- `fsgnjx.h` (47_zfh.md R633). -/
def execFsgnjxH (rd rs1 rs2 : Reg) (s : State) : Result :=
  fpGuard (bitsOf (.fsgnjx_h rd rs1 rs2)) s
    (putFp .h rd (fpSgnjx .h (s.fv .h rs1) (s.fv .h rs2), 0) s)

/-- `fmin.h` (47_zfh.md R634). -/
def execFminH (rd rs1 rs2 : Reg) (s : State) : Result :=
  fpGuard (bitsOf (.fmin_h rd rs1 rs2)) s
    (putFp .h rd (fpMin .h (s.fv .h rs1) (s.fv .h rs2)) s)

/-- `fmax.h` (47_zfh.md R635). -/
def execFmaxH (rd rs1 rs2 : Reg) (s : State) : Result :=
  fpGuard (bitsOf (.fmax_h rd rs1 rs2)) s
    (putFp .h rd (fpMax .h (s.fv .h rs1) (s.fv .h rs2)) s)

/-- `feq.h` (47_zfh.md R643). -/
def execFeqH (rd rs1 rs2 : Reg) (s : State) : Result :=
  fpGuard (bitsOf (.feq_h rd rs1 rs2)) s
    (putFpInt rd (fpEq .h (s.fv .h rs1) (s.fv .h rs2)) s)

/-- `flt.h` (47_zfh.md R644). -/
def execFltH (rd rs1 rs2 : Reg) (s : State) : Result :=
  fpGuard (bitsOf (.flt_h rd rs1 rs2)) s
    (putFpInt rd (fpLt s.cfg .h (s.fv .h rs1) (s.fv .h rs2)) s)

/-- `fle.h` (47_zfh.md R645). -/
def execFleH (rd rs1 rs2 : Reg) (s : State) : Result :=
  fpGuard (bitsOf (.fle_h rd rs1 rs2)) s
    (putFpInt rd (fpLe s.cfg .h (s.fv .h rs1) (s.fv .h rs2)) s)

/-- `fclass.h` (47_zfh.md R646). -/
def execFclassH (rd rs1 : Reg) (s : State) : Result :=
  fpGuard (bitsOf (.fclass_h rd rs1)) s
    (putFpInt rd (fpClass .h (s.fv .h rs1), 0) s)

/-- `fcvt.w.h` (47_zfh.md R647). -/
def execFcvtWH (rd rs1 : Reg) (rm : BitVec 3) (s : State) : Result :=
  fpRounded (bitsOf (.fcvt_w_h rd rs1 rm)) rm s fun mode =>
    putFpInt rd (fpToInt .h .w mode (s.fv .h rs1)) s

/-- `fcvt.wu.h` (47_zfh.md R648). -/
def execFcvtWuH (rd rs1 : Reg) (rm : BitVec 3) (s : State) : Result :=
  fpRounded (bitsOf (.fcvt_wu_h rd rs1 rm)) rm s fun mode =>
    putFpInt rd (fpToInt .h .wu mode (s.fv .h rs1)) s

/-- `fcvt.l.h` (47_zfh.md R655). -/
def execFcvtLH (rd rs1 : Reg) (rm : BitVec 3) (s : State) : Result :=
  fpRounded (bitsOf (.fcvt_l_h rd rs1 rm)) rm s fun mode =>
    putFpInt rd (fpToInt .h .l mode (s.fv .h rs1)) s

/-- `fcvt.lu.h` (47_zfh.md R656). -/
def execFcvtLuH (rd rs1 : Reg) (rm : BitVec 3) (s : State) : Result :=
  fpRounded (bitsOf (.fcvt_lu_h rd rs1 rm)) rm s fun mode =>
    putFpInt rd (fpToInt .h .lu mode (s.fv .h rs1)) s

/-- `fcvt.h.w` (47_zfh.md R650). -/
def execFcvtHW (rd rs1 : Reg) (rm : BitVec 3) (s : State) : Result :=
  fpRounded (bitsOf (.fcvt_h_w rd rs1 rm)) rm s fun mode =>
    putFp .h rd (fpOfInt .h mode (((s.rx rs1).setWidth 32).toInt)) s

/-- `fcvt.h.wu` (47_zfh.md R651). -/
def execFcvtHWu (rd rs1 : Reg) (rm : BitVec 3) (s : State) : Result :=
  fpRounded (bitsOf (.fcvt_h_wu rd rs1 rm)) rm s fun mode =>
    putFp .h rd (fpOfInt .h mode (((s.rx rs1).setWidth 32).toNat)) s

/-- `fcvt.h.l` (47_zfh.md R657). -/
def execFcvtHL (rd rs1 : Reg) (rm : BitVec 3) (s : State) : Result :=
  fpRounded (bitsOf (.fcvt_h_l rd rs1 rm)) rm s fun mode =>
    putFp .h rd (fpOfInt .h mode ((s.rx rs1).toInt)) s

/-- `fcvt.h.lu` (47_zfh.md R658). -/
def execFcvtHLu (rd rs1 : Reg) (rm : BitVec 3) (s : State) : Result :=
  fpRounded (bitsOf (.fcvt_h_lu rd rs1 rm)) rm s fun mode =>
    putFp .h rd (fpOfInt .h mode ((s.rx rs1).toNat)) s

/-- `fcvt.s.h` (47_zfh.md R636). -/
def execFcvtSH (rd rs1 : Reg) (rm : BitVec 3) (s : State) : Result :=
  fpRounded (bitsOf (.fcvt_s_h rd rs1 rm)) rm s fun mode =>
    putFp .s rd (fpConvert .h .s mode (s.fv .h rs1)) s

/-- `fcvt.h.s` (47_zfh.md R637). -/
def execFcvtHS (rd rs1 : Reg) (rm : BitVec 3) (s : State) : Result :=
  fpRounded (bitsOf (.fcvt_h_s rd rs1 rm)) rm s fun mode =>
    putFp .h rd (fpConvert .s .h mode (s.fv .s rs1)) s

/-- `fcvt.d.h` (47_zfh.md R638). -/
def execFcvtDH (rd rs1 : Reg) (rm : BitVec 3) (s : State) : Result :=
  fpRounded (bitsOf (.fcvt_d_h rd rs1 rm)) rm s fun mode =>
    putFp .d rd (fpConvert .h .d mode (s.fv .h rs1)) s

/-- `fcvt.h.d` (47_zfh.md R639). -/
def execFcvtHD (rd rs1 : Reg) (rm : BitVec 3) (s : State) : Result :=
  fpRounded (bitsOf (.fcvt_h_d rd rs1 rm)) rm s fun mode =>
    putFp .h rd (fpConvert .d .h mode (s.fv .d rs1)) s

/-- `fmv.x.h` (47_zfh.md R649). -/
def execFmvXH (rd rs1 : Reg) (s : State) : Result :=
  fpGuard (bitsOf (.fmv_x_h rd rs1)) s
    (put 4 rd (sext16 (s.rf rs1)) s)

/-- `fmv.h.x` (47_zfh.md R652). -/
def execFmvHX (rd rs1 : Reg) (s : State) : Result :=
  fpGuard (bitsOf (.fmv_h_x rd rs1)) s
    (retire 4 (s.wf rd (box .h (s.rx rs1))))

/-- `fcvt.q.h` (47_zfh.md R641). Always illegal: no register holds a quad value (R640). -/
def execFcvtQH (rd rs1 : Reg) (rm : BitVec 3) (s : State) : Result := illegal (bitsOf (.fcvt_q_h rd rs1 rm)) s

/-- `fcvt.h.q` (47_zfh.md R642). Always illegal: no register holds a quad value (R640). -/
def execFcvtHQ (rd rs1 : Reg) (rm : BitVec 3) (s : State) : Result := illegal (bitsOf (.fcvt_h_q rd rs1 rm)) s

/-- `flh` (47_zfh.md R653). -/
def execFlh (rd rs1 : Reg) (imm : BitVec 12) (s : State) : Result :=
  loadFp 4 (bitsOf (.flh rd rs1 imm)) .h rd (s.ea rs1 (imm12 imm)) s

/-- `fsh` (47_zfh.md R654). -/
def execFsh (rs1 rs2 : Reg) (imm : BitVec 12) (s : State) : Result :=
  storeFp 4 (bitsOf (.fsh rs1 rs2 imm)) .h rs2 (s.ea rs1 (imm12 imm)) s

end Sys2Proof.Machine
end

