-- ==== Sys2Proof/Machine/FloatSingle.lean ====
section
/-! DEFINITION. The F extension (44_fd.md R410 to R433, R458, R459, R462 to R465). -/

namespace Sys2Proof.Machine

open Sys2Proof

/-- `fmadd.s` (44_fd.md R410). -/
def execFmaddS (rd rs1 rs2 rs3 : Reg) (rm : BitVec 3) (s : State) : Result :=
  fpRounded (bitsOf (.fmadd_s rd rs1 rs2 rs3 rm)) rm s fun mode =>
    putFp .s rd (fpMadd .s mode (s.fv .s rs1) (s.fv .s rs2) (s.fv .s rs3)) s

/-- `fmsub.s` (44_fd.md R411). -/
def execFmsubS (rd rs1 rs2 rs3 : Reg) (rm : BitVec 3) (s : State) : Result :=
  fpRounded (bitsOf (.fmsub_s rd rs1 rs2 rs3 rm)) rm s fun mode =>
    putFp .s rd (fpMsub .s mode (s.fv .s rs1) (s.fv .s rs2) (s.fv .s rs3)) s

/-- `fnmsub.s` (44_fd.md R412). -/
def execFnmsubS (rd rs1 rs2 rs3 : Reg) (rm : BitVec 3) (s : State) : Result :=
  fpRounded (bitsOf (.fnmsub_s rd rs1 rs2 rs3 rm)) rm s fun mode =>
    putFp .s rd (fpNmsub .s mode (s.fv .s rs1) (s.fv .s rs2) (s.fv .s rs3)) s

/-- `fnmadd.s` (44_fd.md R413). -/
def execFnmaddS (rd rs1 rs2 rs3 : Reg) (rm : BitVec 3) (s : State) : Result :=
  fpRounded (bitsOf (.fnmadd_s rd rs1 rs2 rs3 rm)) rm s fun mode =>
    putFp .s rd (fpNmadd .s mode (s.fv .s rs1) (s.fv .s rs2) (s.fv .s rs3)) s

/-- `fadd.s` (44_fd.md R414). -/
def execFaddS (rd rs1 rs2 : Reg) (rm : BitVec 3) (s : State) : Result :=
  fpRounded (bitsOf (.fadd_s rd rs1 rs2 rm)) rm s fun mode =>
    putFp .s rd (fpAdd .s mode (s.fv .s rs1) (s.fv .s rs2)) s

/-- `fsub.s` (44_fd.md R415). -/
def execFsubS (rd rs1 rs2 : Reg) (rm : BitVec 3) (s : State) : Result :=
  fpRounded (bitsOf (.fsub_s rd rs1 rs2 rm)) rm s fun mode =>
    putFp .s rd (fpSub .s mode (s.fv .s rs1) (s.fv .s rs2)) s

/-- `fmul.s` (44_fd.md R416). -/
def execFmulS (rd rs1 rs2 : Reg) (rm : BitVec 3) (s : State) : Result :=
  fpRounded (bitsOf (.fmul_s rd rs1 rs2 rm)) rm s fun mode =>
    putFp .s rd (fpMul .s mode (s.fv .s rs1) (s.fv .s rs2)) s

/-- `fdiv.s` (44_fd.md R417). -/
def execFdivS (rd rs1 rs2 : Reg) (rm : BitVec 3) (s : State) : Result :=
  fpRounded (bitsOf (.fdiv_s rd rs1 rs2 rm)) rm s fun mode =>
    putFp .s rd (fpDiv .s mode (s.fv .s rs1) (s.fv .s rs2)) s

/-- `fsqrt.s` (44_fd.md R418). -/
def execFsqrtS (rd rs1 : Reg) (rm : BitVec 3) (s : State) : Result :=
  fpRounded (bitsOf (.fsqrt_s rd rs1 rm)) rm s fun mode =>
    putFp .s rd (fpSqrt .s mode (s.fv .s rs1)) s

/-- `fsgnj.s` (44_fd.md R419). -/
def execFsgnjS (rd rs1 rs2 : Reg) (s : State) : Result :=
  fpGuard (bitsOf (.fsgnj_s rd rs1 rs2)) s
    (putFp .s rd (fpSgnj .s (s.fv .s rs1) (s.fv .s rs2), 0) s)

/-- `fsgnjn.s` (44_fd.md R420). -/
def execFsgnjnS (rd rs1 rs2 : Reg) (s : State) : Result :=
  fpGuard (bitsOf (.fsgnjn_s rd rs1 rs2)) s
    (putFp .s rd (fpSgnjn .s (s.fv .s rs1) (s.fv .s rs2), 0) s)

/-- `fsgnjx.s` (44_fd.md R421). -/
def execFsgnjxS (rd rs1 rs2 : Reg) (s : State) : Result :=
  fpGuard (bitsOf (.fsgnjx_s rd rs1 rs2)) s
    (putFp .s rd (fpSgnjx .s (s.fv .s rs1) (s.fv .s rs2), 0) s)

/-- `fmin.s` (44_fd.md R422). -/
def execFminS (rd rs1 rs2 : Reg) (s : State) : Result :=
  fpGuard (bitsOf (.fmin_s rd rs1 rs2)) s
    (putFp .s rd (fpMin .s (s.fv .s rs1) (s.fv .s rs2)) s)

/-- `fmax.s` (44_fd.md R423). -/
def execFmaxS (rd rs1 rs2 : Reg) (s : State) : Result :=
  fpGuard (bitsOf (.fmax_s rd rs1 rs2)) s
    (putFp .s rd (fpMax .s (s.fv .s rs1) (s.fv .s rs2)) s)

/-- `feq.s` (44_fd.md R427). -/
def execFeqS (rd rs1 rs2 : Reg) (s : State) : Result :=
  fpGuard (bitsOf (.feq_s rd rs1 rs2)) s
    (putFpInt rd (fpEq .s (s.fv .s rs1) (s.fv .s rs2)) s)

/-- `flt.s` (44_fd.md R428). -/
def execFltS (rd rs1 rs2 : Reg) (s : State) : Result :=
  fpGuard (bitsOf (.flt_s rd rs1 rs2)) s
    (putFpInt rd (fpLt s.cfg .s (s.fv .s rs1) (s.fv .s rs2)) s)

/-- `fle.s` (44_fd.md R429). -/
def execFleS (rd rs1 rs2 : Reg) (s : State) : Result :=
  fpGuard (bitsOf (.fle_s rd rs1 rs2)) s
    (putFpInt rd (fpLe s.cfg .s (s.fv .s rs1) (s.fv .s rs2)) s)

/-- `fclass.s` (44_fd.md R430). -/
def execFclassS (rd rs1 : Reg) (s : State) : Result :=
  fpGuard (bitsOf (.fclass_s rd rs1)) s
    (putFpInt rd (fpClass .s (s.fv .s rs1), 0) s)

/-- `fcvt.w.s` (44_fd.md R424). -/
def execFcvtWS (rd rs1 : Reg) (rm : BitVec 3) (s : State) : Result :=
  fpRounded (bitsOf (.fcvt_w_s rd rs1 rm)) rm s fun mode =>
    putFpInt rd (fpToInt .s .w mode (s.fv .s rs1)) s

/-- `fcvt.wu.s` (44_fd.md R425). -/
def execFcvtWuS (rd rs1 : Reg) (rm : BitVec 3) (s : State) : Result :=
  fpRounded (bitsOf (.fcvt_wu_s rd rs1 rm)) rm s fun mode =>
    putFpInt rd (fpToInt .s .wu mode (s.fv .s rs1)) s

/-- `fcvt.l.s` (44_fd.md R462). -/
def execFcvtLS (rd rs1 : Reg) (rm : BitVec 3) (s : State) : Result :=
  fpRounded (bitsOf (.fcvt_l_s rd rs1 rm)) rm s fun mode =>
    putFpInt rd (fpToInt .s .l mode (s.fv .s rs1)) s

/-- `fcvt.lu.s` (44_fd.md R463). -/
def execFcvtLuS (rd rs1 : Reg) (rm : BitVec 3) (s : State) : Result :=
  fpRounded (bitsOf (.fcvt_lu_s rd rs1 rm)) rm s fun mode =>
    putFpInt rd (fpToInt .s .lu mode (s.fv .s rs1)) s

/-- `fcvt.s.w` (44_fd.md R431). -/
def execFcvtSW (rd rs1 : Reg) (rm : BitVec 3) (s : State) : Result :=
  fpRounded (bitsOf (.fcvt_s_w rd rs1 rm)) rm s fun mode =>
    putFp .s rd (fpOfInt .s mode (((s.rx rs1).setWidth 32).toInt)) s

/-- `fcvt.s.wu` (44_fd.md R432). -/
def execFcvtSWu (rd rs1 : Reg) (rm : BitVec 3) (s : State) : Result :=
  fpRounded (bitsOf (.fcvt_s_wu rd rs1 rm)) rm s fun mode =>
    putFp .s rd (fpOfInt .s mode (((s.rx rs1).setWidth 32).toNat)) s

/-- `fcvt.s.l` (44_fd.md R464). -/
def execFcvtSL (rd rs1 : Reg) (rm : BitVec 3) (s : State) : Result :=
  fpRounded (bitsOf (.fcvt_s_l rd rs1 rm)) rm s fun mode =>
    putFp .s rd (fpOfInt .s mode ((s.rx rs1).toInt)) s

/-- `fcvt.s.lu` (44_fd.md R465). -/
def execFcvtSLu (rd rs1 : Reg) (rm : BitVec 3) (s : State) : Result :=
  fpRounded (bitsOf (.fcvt_s_lu rd rs1 rm)) rm s fun mode =>
    putFp .s rd (fpOfInt .s mode ((s.rx rs1).toNat)) s

/-- `fmv.x.w` (44_fd.md R426). -/
def execFmvXW (rd rs1 : Reg) (s : State) : Result :=
  fpGuard (bitsOf (.fmv_x_w rd rs1)) s
    (put 4 rd (sext32 (s.rf rs1)) s)

/-- `fmv.w.x` (44_fd.md R433). -/
def execFmvWX (rd rs1 : Reg) (s : State) : Result :=
  fpGuard (bitsOf (.fmv_w_x rd rs1)) s
    (retire 4 (s.wf rd (box .s (s.rx rs1))))

/-- `flw` (44_fd.md R458). -/
def execFlw (rd rs1 : Reg) (imm : BitVec 12) (s : State) : Result :=
  loadFp 4 (bitsOf (.flw rd rs1 imm)) .s rd (s.ea rs1 (imm12 imm)) s

/-- `fsw` (44_fd.md R459). -/
def execFsw (rs1 rs2 : Reg) (imm : BitVec 12) (s : State) : Result :=
  storeFp 4 (bitsOf (.fsw rs1 rs2 imm)) .s rs2 (s.ea rs1 (imm12 imm)) s

end Sys2Proof.Machine
end

