-- ==== Sys2Proof/Machine/Integer.lean ====
section
/-! DEFINITION. The integer computational instructions of RV32I and RV64I (40_rv_i.md, 41_rv64i.md). -/

namespace Sys2Proof.Machine

open Sys2Proof

/-- `lui` (40_rv_i.md R221). -/
def execLui (rd : Reg) (imm : BitVec 20) (s : State) : Result := put 4 rd (immU imm) s

/-- `auipc` (40_rv_i.md R222). -/
def execAuipc (rd : Reg) (imm : BitVec 20) (s : State) : Result := put 4 rd (s.pc + immU imm) s

/-- `addi` (40_rv_i.md R223). -/
def execAddi (rd rs1 : Reg) (imm : BitVec 12) (s : State) : Result := put 4 rd (s.rx rs1 + imm12 imm) s

/-- `slti` (40_rv_i.md R224). -/
def execSlti (rd rs1 : Reg) (imm : BitVec 12) (s : State) : Result :=
  put 4 rd (boolWord (s.cfg.ltS (s.rx rs1) (imm12 imm))) s

/-- `sltiu` (40_rv_i.md R225). -/
def execSltiu (rd rs1 : Reg) (imm : BitVec 12) (s : State) : Result :=
  put 4 rd (boolWord (s.cfg.ltU (s.rx rs1) (imm12 imm))) s

/-- `xori` (40_rv_i.md R226). -/
def execXori (rd rs1 : Reg) (imm : BitVec 12) (s : State) : Result := put 4 rd (s.rx rs1 ^^^ imm12 imm) s

/-- `ori` (40_rv_i.md R227). -/
def execOri (rd rs1 : Reg) (imm : BitVec 12) (s : State) : Result := put 4 rd (s.rx rs1 ||| imm12 imm) s

/-- `andi` (40_rv_i.md R228). -/
def execAndi (rd rs1 : Reg) (imm : BitVec 12) (s : State) : Result := put 4 rd (s.rx rs1 &&& imm12 imm) s

/-- `slli` (40_rv_i.md R229). -/
def execSlli (rd rs1 : Reg) (shamt : BitVec 6) (s : State) : Result := put 4 rd (s.rx rs1 <<< shamt.toNat) s

/-- `srli` (40_rv_i.md R230). -/
def execSrli (rd rs1 : Reg) (shamt : BitVec 6) (s : State) : Result := put 4 rd (s.cfg.srl (s.rx rs1) shamt.toNat) s

/-- `srai` (40_rv_i.md R231). -/
def execSrai (rd rs1 : Reg) (shamt : BitVec 6) (s : State) : Result := put 4 rd (s.cfg.sra (s.rx rs1) shamt.toNat) s

/-- `add` (40_rv_i.md R232). -/
def execAdd (rd rs1 rs2 : Reg) (s : State) : Result := put 4 rd (s.rx rs1 + s.rx rs2) s

/-- `sub` (40_rv_i.md R233). -/
def execSub (rd rs1 rs2 : Reg) (s : State) : Result := put 4 rd (s.rx rs1 - s.rx rs2) s

/-- `sll` (40_rv_i.md R234). -/
def execSll (rd rs1 rs2 : Reg) (s : State) : Result := put 4 rd (s.rx rs1 <<< s.cfg.shiftAmount (s.rx rs2)) s

/-- `slt` (40_rv_i.md R235). -/
def execSlt (rd rs1 rs2 : Reg) (s : State) : Result := put 4 rd (boolWord (s.cfg.ltS (s.rx rs1) (s.rx rs2))) s

/-- `sltu` (40_rv_i.md R236). -/
def execSltu (rd rs1 rs2 : Reg) (s : State) : Result := put 4 rd (boolWord (s.cfg.ltU (s.rx rs1) (s.rx rs2))) s

/-- `xor` (40_rv_i.md R237). -/
def execXor (rd rs1 rs2 : Reg) (s : State) : Result := put 4 rd (s.rx rs1 ^^^ s.rx rs2) s

/-- `srl` (40_rv_i.md R238). -/
def execSrl (rd rs1 rs2 : Reg) (s : State) : Result :=
  put 4 rd (s.cfg.srl (s.rx rs1) (s.cfg.shiftAmount (s.rx rs2))) s

/-- `sra` (40_rv_i.md R239). -/
def execSra (rd rs1 rs2 : Reg) (s : State) : Result :=
  put 4 rd (s.cfg.sra (s.rx rs1) (s.cfg.shiftAmount (s.rx rs2))) s

/-- `or` (40_rv_i.md R240). -/
def execOr (rd rs1 rs2 : Reg) (s : State) : Result := put 4 rd (s.rx rs1 ||| s.rx rs2) s

/-- `and` (40_rv_i.md R241). -/
def execAnd (rd rs1 rs2 : Reg) (s : State) : Result := put 4 rd (s.rx rs1 &&& s.rx rs2) s

/-- `addiw` (41_rv64i.md R300). -/
def execAddiw (rd rs1 : Reg) (imm : BitVec 12) (s : State) : Result := put 4 rd (sext32 (s.rx rs1 + imm12 imm)) s

/-- `slliw` (41_rv64i.md R301). -/
def execSlliw (rd rs1 : Reg) (shamt : BitVec 5) (s : State) : Result :=
  put 4 rd ((((s.rx rs1).setWidth 32) <<< shamt.toNat : BitVec 32).signExtend 64) s

/-- `srliw` (41_rv64i.md R302). -/
def execSrliw (rd rs1 : Reg) (shamt : BitVec 5) (s : State) : Result :=
  put 4 rd ((((s.rx rs1).setWidth 32) >>> shamt.toNat : BitVec 32).signExtend 64) s

/-- `sraiw` (41_rv64i.md R303). -/
def execSraiw (rd rs1 : Reg) (shamt : BitVec 5) (s : State) : Result :=
  put 4 rd ((BitVec.sshiftRight ((s.rx rs1).setWidth 32) shamt.toNat : BitVec 32).signExtend 64) s

/-- `addw` (41_rv64i.md R304). -/
def execAddw (rd rs1 rs2 : Reg) (s : State) : Result := put 4 rd (sext32 (s.rx rs1 + s.rx rs2)) s

/-- `subw` (41_rv64i.md R305). -/
def execSubw (rd rs1 rs2 : Reg) (s : State) : Result := put 4 rd (sext32 (s.rx rs1 - s.rx rs2)) s

/-- `sllw` (41_rv64i.md R306). -/
def execSllw (rd rs1 rs2 : Reg) (s : State) : Result :=
  put 4 rd ((((s.rx rs1).setWidth 32) <<< ((s.rx rs2).setWidth 5).toNat : BitVec 32).signExtend 64) s

/-- `srlw` (41_rv64i.md R307). -/
def execSrlw (rd rs1 rs2 : Reg) (s : State) : Result :=
  put 4 rd ((((s.rx rs1).setWidth 32) >>> ((s.rx rs2).setWidth 5).toNat : BitVec 32).signExtend 64) s

/-- `sraw` (41_rv64i.md R308). -/
def execSraw (rd rs1 rs2 : Reg) (s : State) : Result :=
  put 4 rd ((BitVec.sshiftRight ((s.rx rs1).setWidth 32) ((s.rx rs2).setWidth 5).toNat : BitVec 32).signExtend 64) s

end Sys2Proof.Machine
end

