-- ==== Sys2Proof/Machine/LoadStore.lean ====
section
/-! DEFINITION. The integer loads and stores (40_rv_i.md R263 to R271, 41_rv64i.md R309 to R311). -/

namespace Sys2Proof.Machine

open Sys2Proof

/-- `lb` (40_rv_i.md R264). -/
def execLb (rd rs1 : Reg) (imm : BitVec 12) (s : State) : Result := loadInt 4 rd (s.ea rs1 (imm12 imm)) 1 sext8 s

/-- `lh` (40_rv_i.md R265). -/
def execLh (rd rs1 : Reg) (imm : BitVec 12) (s : State) : Result := loadInt 4 rd (s.ea rs1 (imm12 imm)) 2 sext16 s

/-- `lw` (40_rv_i.md R266). -/
def execLw (rd rs1 : Reg) (imm : BitVec 12) (s : State) : Result := loadInt 4 rd (s.ea rs1 (imm12 imm)) 4 sext32 s

/-- `lbu` (40_rv_i.md R267). -/
def execLbu (rd rs1 : Reg) (imm : BitVec 12) (s : State) : Result := loadInt 4 rd (s.ea rs1 (imm12 imm)) 1 id s

/-- `lhu` (40_rv_i.md R268). -/
def execLhu (rd rs1 : Reg) (imm : BitVec 12) (s : State) : Result := loadInt 4 rd (s.ea rs1 (imm12 imm)) 2 id s

/-- `lwu` (41_rv64i.md R309). -/
def execLwu (rd rs1 : Reg) (imm : BitVec 12) (s : State) : Result := loadInt 4 rd (s.ea rs1 (imm12 imm)) 4 id s

/-- `ld` (41_rv64i.md R310). -/
def execLd (rd rs1 : Reg) (imm : BitVec 12) (s : State) : Result := loadInt 4 rd (s.ea rs1 (imm12 imm)) 8 id s

/-- `sb` (40_rv_i.md R269). -/
def execSb (rs1 rs2 : Reg) (imm : BitVec 12) (s : State) : Result := storeVal 4 (s.ea rs1 (imm12 imm)) 1 (s.rx rs2) s

/-- `sh` (40_rv_i.md R270). -/
def execSh (rs1 rs2 : Reg) (imm : BitVec 12) (s : State) : Result := storeVal 4 (s.ea rs1 (imm12 imm)) 2 (s.rx rs2) s

/-- `sw` (40_rv_i.md R271). -/
def execSw (rs1 rs2 : Reg) (imm : BitVec 12) (s : State) : Result := storeVal 4 (s.ea rs1 (imm12 imm)) 4 (s.rx rs2) s

/-- `sd` (41_rv64i.md R311). -/
def execSd (rs1 rs2 : Reg) (imm : BitVec 12) (s : State) : Result := storeVal 4 (s.ea rs1 (imm12 imm)) 8 (s.rx rs2) s

end Sys2Proof.Machine
end

