-- ==== Sys2Proof/Machine/MulDiv.lean ====
section
/-! DEFINITION. The M extension (42_m.md). -/

namespace Sys2Proof.Machine

open Sys2Proof

/-- `signed(a[31:0])`. -/
def low32S (a : Word) : Int := (a.setWidth 32).toInt

/-- `unsigned(a[31:0])`. -/
def low32U (a : Word) : Nat := (a.setWidth 32).toNat

/-- `mul` (42_m.md R322). -/
def execMul (rd rs1 rs2 : Reg) (s : State) : Result := put 4 rd (s.rx rs1 * s.rx rs2) s

/-- `mulh` (42_m.md R323). -/
def execMulh (rd rs1 rs2 : Reg) (s : State) : Result :=
  put 4 rd (BitVec.ofInt 64 (s.cfg.toS (s.rx rs1) * s.cfg.toS (s.rx rs2) / 2 ^ s.cfg.xlen.bits)) s

/-- `mulhsu` (42_m.md R324). -/
def execMulhsu (rd rs1 rs2 : Reg) (s : State) : Result :=
  put 4 rd (BitVec.ofInt 64 (s.cfg.toS (s.rx rs1) * (s.cfg.toU (s.rx rs2) : Int) / 2 ^ s.cfg.xlen.bits)) s

/-- `mulhu` (42_m.md R325). -/
def execMulhu (rd rs1 rs2 : Reg) (s : State) : Result :=
  put 4 rd (BitVec.ofNat 64 (s.cfg.toU (s.rx rs1) * s.cfg.toU (s.rx rs2) / 2 ^ s.cfg.xlen.bits)) s

/-- `div` (42_m.md R326). -/
def execDiv (rd rs1 rs2 : Reg) (s : State) : Result :=
  put 4 rd (BitVec.ofInt 64 (divS (s.cfg.toS (s.rx rs1)) (s.cfg.toS (s.rx rs2)))) s

/-- `divu` (42_m.md R327). -/
def execDivu (rd rs1 rs2 : Reg) (s : State) : Result :=
  put 4 rd (BitVec.ofNat 64 (divU s.cfg.xlen.bits (s.cfg.toU (s.rx rs1)) (s.cfg.toU (s.rx rs2)))) s

/-- `rem` (42_m.md R328). -/
def execRem (rd rs1 rs2 : Reg) (s : State) : Result :=
  put 4 rd (BitVec.ofInt 64 (remS (s.cfg.toS (s.rx rs1)) (s.cfg.toS (s.rx rs2)))) s

/-- `remu` (42_m.md R329). -/
def execRemu (rd rs1 rs2 : Reg) (s : State) : Result :=
  put 4 rd (BitVec.ofNat 64 (remU (s.cfg.toU (s.rx rs1)) (s.cfg.toU (s.rx rs2)))) s

/-- `mulw` (42_m.md R330). -/
def execMulw (rd rs1 rs2 : Reg) (s : State) : Result := put 4 rd (sext32 (s.rx rs1 * s.rx rs2)) s

/-- `divw` (42_m.md R331). -/
def execDivw (rd rs1 rs2 : Reg) (s : State) : Result :=
  put 4 rd ((BitVec.ofInt 32 (divS (low32S (s.rx rs1)) (low32S (s.rx rs2)))).signExtend 64) s

/-- `divuw` (42_m.md R332). -/
def execDivuw (rd rs1 rs2 : Reg) (s : State) : Result :=
  put 4 rd ((BitVec.ofNat 32 (divU 32 (low32U (s.rx rs1)) (low32U (s.rx rs2)))).signExtend 64) s

/-- `remw` (42_m.md R333). -/
def execRemw (rd rs1 rs2 : Reg) (s : State) : Result :=
  put 4 rd ((BitVec.ofInt 32 (remS (low32S (s.rx rs1)) (low32S (s.rx rs2)))).signExtend 64) s

/-- `remuw` (42_m.md R334). -/
def execRemuw (rd rs1 rs2 : Reg) (s : State) : Result :=
  put 4 rd ((BitVec.ofNat 32 (remU (low32U (s.rx rs1)) (low32U (s.rx rs2)))).signExtend 64) s

end Sys2Proof.Machine
end

