-- ==== Sys2Proof/Machine/Zc.lean ====
section
/-! DEFINITION. Zcb, Zcmp and Zcmt (48_zc.md). -/

namespace Sys2Proof.Machine

open Sys2Proof

/-- `c.lbu` (48_zc.md R672). -/
def execCLbu (rd rs1 : CReg) (uimm : BitVec 2) (s : State) : Result :=
  loadInt 2 rd.reg (s.ea rs1.reg (uimm.setWidth 64)) 1 id s

/-- The offset of the halfword forms: 0 or 2 (48_zc.md R671). -/
def uimm2 (i : BitVec 1) : Word := i.setWidth 64 <<< 1

/-- `c.lhu` (48_zc.md R673). -/
def execCLhu (rd rs1 : CReg) (uimm : BitVec 1) (s : State) : Result :=
  loadInt 2 rd.reg (s.ea rs1.reg (uimm2 uimm)) 2 id s

/-- `c.lh` (48_zc.md R674). -/
def execCLh (rd rs1 : CReg) (uimm : BitVec 1) (s : State) : Result :=
  loadInt 2 rd.reg (s.ea rs1.reg (uimm2 uimm)) 2 sext16 s

/-- `c.sb` (48_zc.md R675). -/
def execCSb (rs1 rs2 : CReg) (uimm : BitVec 2) (s : State) : Result :=
  storeVal 2 (s.ea rs1.reg (uimm.setWidth 64)) 1 (s.rx rs2.reg) s

/-- `c.sh` (48_zc.md R676). -/
def execCSh (rs1 rs2 : CReg) (uimm : BitVec 1) (s : State) : Result :=
  storeVal 2 (s.ea rs1.reg (uimm2 uimm)) 2 (s.rx rs2.reg) s

/-- `c.zext.b` (48_zc.md R677). -/
def execCZextB (rd : CReg) (s : State) : Result := put 2 rd.reg (zext8 (s.rx rd.reg)) s

/-- `c.sext.b` (48_zc.md R678). -/
def execCSextB (rd : CReg) (s : State) : Result := put 2 rd.reg (sext8 (s.rx rd.reg)) s

/-- `c.zext.h` (48_zc.md R679). -/
def execCZextH (rd : CReg) (s : State) : Result := put 2 rd.reg (zext16 (s.rx rd.reg)) s

/-- `c.sext.h` (48_zc.md R680). -/
def execCSextH (rd : CReg) (s : State) : Result := put 2 rd.reg (sext16 (s.rx rd.reg)) s

/-- `c.zext.w` (48_zc.md R681). -/
def execCZextW (rd : CReg) (s : State) : Result := put 2 rd.reg (zext32 (s.rx rd.reg)) s

/-- `c.not` (48_zc.md R682). -/
def execCNot (rd : CReg) (s : State) : Result := put 2 rd.reg (~~~s.rx rd.reg) s

/-- `c.mul` (48_zc.md R683). -/
def execCMul (rd rs2 : CReg) (s : State) : Result := put 2 rd.reg (s.rx rd.reg * s.rx rs2.reg) s

/-! ### Zcmp -/

/-- How many registers a list names (48_zc.md R690). -/
def listCount (rlist : BitVec 4) : Nat := if rlist = 15#4 then 13 else rlist.toNat - 3

/-- The registers of a list, in the order their accesses are made: 27 down to 18, then 9, 8, 1 (48_zc.md R690, R691). -/
def listRegs (rlist : BitVec 4) : List Reg :=
  ([1, 8, 9, 18, 19, 20, 21, 22, 23, 24, 25, 26, 27].take (listCount rlist)).reverse

/-- `stack_adj`: the least multiple of 16 bytes that holds the registers, and `spimm` more (48_zc.md R690). -/
def stackAdj (c : Config) (rlist : BitVec 4) (spimm : BitVec 2) : Word :=
  BitVec.ofNat 64 ((listCount rlist * c.xlen.bytes + 15) / 16 * 16 + spimm.toNat * 16)

/-- The stores of a push at descending addresses; the earlier ones stay when one fails, and the trap value is that of the
store that failed: its address, or the byte's where it was split (48_zc.md R691, R692; 20_memory.md R112; log 29). -/
def pushAll : List Reg → Word → State → Except (Exc × Word × State) State
  | [], _, s => .ok s
  | r :: l, addr, s =>
    match s.write .push addr s.cfg.xlen.bytes (s.rx r) with
    | .error x => .error x
    | .ok t => pushAll l (t.cfg.norm (addr - BitVec.ofNat 64 t.cfg.xlen.bytes)) t

/-- The loads of a pop at descending addresses; the earlier ones stay when one fails, and the trap value is that of the
load that failed: its address, or the byte's where it was split (48_zc.md R691, R693; 20_memory.md R112; log 29). -/
def popAll : List Reg → Word → State → Except (Exc × Word × State) State
  | [], _, s => .ok s
  | r :: l, addr, s =>
    match s.read .pop addr s.cfg.xlen.bytes with
    | .error (e, tval) => .error (e, tval, s)
    | .ok v => popAll l (s.cfg.norm (addr - BitVec.ofNat 64 s.cfg.xlen.bytes)) (s.wx r v)

/-- The highest address a pop reads: `sp + stack_adj - bytes` (48_zc.md R693). -/
def State.popStart (s : State) (rlist : BitVec 4) (spimm : BitVec 2) : Word :=
  s.ea State.sp (stackAdj s.cfg rlist spimm - BitVec.ofNat 64 s.cfg.xlen.bytes)

/-- The loads of a pop, then what the instruction does when all of them completed (48_zc.md R691). -/
def popThen (rlist : BitVec 4) (spimm : BitVec 2) (s : State) (k : State → Result) : Result :=
  match popAll (listRegs rlist) (s.popStart rlist spimm) s with
  | .error (e, tval, t) => raise e tval t
  | .ok t => k (t.wx State.sp (s.rx State.sp + stackAdj s.cfg rlist spimm))

/-- `cm.push` (48_zc.md R692). -/
def execCmPush (rlist : BitVec 4) (spimm : BitVec 2) (s : State) : Result :=
  match pushAll (listRegs rlist) (s.ea State.sp (-BitVec.ofNat 64 s.cfg.xlen.bytes)) s with
  | .error (e, tval, t) => raise e tval t
  | .ok t => put 2 State.sp (s.rx State.sp - stackAdj s.cfg rlist spimm) t

/-- `cm.pop` (48_zc.md R693). -/
def execCmPop (rlist : BitVec 4) (spimm : BitVec 2) (s : State) : Result := popThen rlist spimm s (retire 2)

/-- The address `ret` goes to: `x1` with bit 0 cleared (48_zc.md R694). -/
def State.retTarget (s : State) : Word := s.rx State.ra &&& ~~~1#64

/-- `cm.popretz` (48_zc.md R694). -/
def execCmPopretz (rlist : BitVec 4) (spimm : BitVec 2) (s : State) : Result :=
  popThen rlist spimm s fun t => retireAt t.retTarget (t.wx 10 0)

/-- `cm.popret` (48_zc.md R695). -/
def execCmPopret (rlist : BitVec 4) (spimm : BitVec 2) (s : State) : Result :=
  popThen rlist spimm s fun t => retireAt t.retTarget t

/-- `cm.mvsa01` (48_zc.md R696). -/
def execCmMvsa01 (r1s r2s : BitVec 3) (s : State) : Result :=
  retire 2 ((s.wx (sreg r1s) (s.rx 10)).wx (sreg r2s) (s.rx 11))

/-- `cm.mva01s` (48_zc.md R698). -/
def execCmMva01s (r1s r2s : BitVec 3) (s : State) : Result :=
  retire 2 ((s.wx 10 (s.rx (sreg r1s))).wx 11 (s.rx (sreg r2s)))

/-! ### Zcmt -/

/-- `table_address` (48_zc.md R699). -/
def State.tableAddr (s : State) (index : Nat) : Word :=
  s.cfg.norm ((s.csr.jvt &&& ~~~63#64) + BitVec.ofNat 64 (index * s.cfg.xlen.bytes))

/-- The table read and the jump to the entry (48_zc.md R699); `link` is what the instruction does first when the read
succeeds. -/
def tableJump (index : Nat) (link : State → State) (s : State) : Result :=
  match s.read .table (s.tableAddr index) s.cfg.xlen.bytes with
  | .error (e, tval) => raise e tval s
  | .ok t => retireAt (t &&& ~~~1#64) (link s)

/-- `cm.jt` (48_zc.md R700). -/
def execCmJt (index : BitVec 5) (s : State) : Result := tableJump index.toNat id s

/-- `cm.jalt` (48_zc.md R701). -/
def execCmJalt (index : BitVec 8) (s : State) : Result := tableJump index.toNat (fun t => t.wx State.ra (s.after 2)) s

end Sys2Proof.Machine
end

