-- ==== Sys2Proof/Machine/Dispatch.lean ====
section
/-! DEFINITION. The meaning of each instruction. -/

namespace Sys2Proof.Machine

open Sys2Proof

def exec (i : Instr) (s : State) : Host.Outcome State Fault Refusal :=
  match i with
  | .lui rd imm => Sys2Proof.Machine.execLui rd imm s
  | .auipc rd imm => Sys2Proof.Machine.execAuipc rd imm s
  | .addi rd rs1 imm => Sys2Proof.Machine.execAddi rd rs1 imm s
  | .slti rd rs1 imm => Sys2Proof.Machine.execSlti rd rs1 imm s
  | .sltiu rd rs1 imm => Sys2Proof.Machine.execSltiu rd rs1 imm s
  | .xori rd rs1 imm => Sys2Proof.Machine.execXori rd rs1 imm s
  | .ori rd rs1 imm => Sys2Proof.Machine.execOri rd rs1 imm s
  | .andi rd rs1 imm => Sys2Proof.Machine.execAndi rd rs1 imm s
  | .slli rd rs1 shamt => Sys2Proof.Machine.execSlli rd rs1 shamt s
  | .srli rd rs1 shamt => Sys2Proof.Machine.execSrli rd rs1 shamt s
  | .srai rd rs1 shamt => Sys2Proof.Machine.execSrai rd rs1 shamt s
  | .add rd rs1 rs2 => Sys2Proof.Machine.execAdd rd rs1 rs2 s
  | .sub rd rs1 rs2 => Sys2Proof.Machine.execSub rd rs1 rs2 s
  | .sll rd rs1 rs2 => Sys2Proof.Machine.execSll rd rs1 rs2 s
  | .slt rd rs1 rs2 => Sys2Proof.Machine.execSlt rd rs1 rs2 s
  | .sltu rd rs1 rs2 => Sys2Proof.Machine.execSltu rd rs1 rs2 s
  | .xor rd rs1 rs2 => Sys2Proof.Machine.execXor rd rs1 rs2 s
  | .srl rd rs1 rs2 => Sys2Proof.Machine.execSrl rd rs1 rs2 s
  | .sra rd rs1 rs2 => Sys2Proof.Machine.execSra rd rs1 rs2 s
  | .or rd rs1 rs2 => Sys2Proof.Machine.execOr rd rs1 rs2 s
  | .and rd rs1 rs2 => Sys2Proof.Machine.execAnd rd rs1 rs2 s
  | .fence fm pred succ rs1 rd => Sys2Proof.Machine.execFence fm pred succ rs1 rd s
  | .fence_i imm rs1 rd => Sys2Proof.Machine.execFenceI imm rs1 rd s
  | .csrrw rd rs1 csr => Sys2Proof.Machine.execCsrrw rd rs1 csr s
  | .csrrs rd rs1 csr => Sys2Proof.Machine.execCsrrs rd rs1 csr s
  | .csrrc rd rs1 csr => Sys2Proof.Machine.execCsrrc rd rs1 csr s
  | .csrrwi rd uimm csr => Sys2Proof.Machine.execCsrrwi rd uimm csr s
  | .csrrsi rd uimm csr => Sys2Proof.Machine.execCsrrsi rd uimm csr s
  | .csrrci rd uimm csr => Sys2Proof.Machine.execCsrrci rd uimm csr s
  | .ecall => Sys2Proof.Machine.execEcall s
  | .ebreak => Sys2Proof.Machine.execEbreak s
  | .sret => Sys2Proof.Machine.execSret s
  | .mret => Sys2Proof.Machine.execMret s
  | .wfi => Sys2Proof.Machine.execWfi s
  | .sfence_vma rs1 rs2 => Sys2Proof.Machine.execSfenceVma rs1 rs2 s
  | .lb rd rs1 imm => Sys2Proof.Machine.execLb rd rs1 imm s
  | .lh rd rs1 imm => Sys2Proof.Machine.execLh rd rs1 imm s
  | .lw rd rs1 imm => Sys2Proof.Machine.execLw rd rs1 imm s
  | .lbu rd rs1 imm => Sys2Proof.Machine.execLbu rd rs1 imm s
  | .lhu rd rs1 imm => Sys2Proof.Machine.execLhu rd rs1 imm s
  | .sb rs1 rs2 imm => Sys2Proof.Machine.execSb rs1 rs2 imm s
  | .sh rs1 rs2 imm => Sys2Proof.Machine.execSh rs1 rs2 imm s
  | .sw rs1 rs2 imm => Sys2Proof.Machine.execSw rs1 rs2 imm s
  | .jal rd imm => Sys2Proof.Machine.execJal rd imm s
  | .jalr rd rs1 imm => Sys2Proof.Machine.execJalr rd rs1 imm s
  | .beq rs1 rs2 imm => Sys2Proof.Machine.execBeq rs1 rs2 imm s
  | .bne rs1 rs2 imm => Sys2Proof.Machine.execBne rs1 rs2 imm s
  | .blt rs1 rs2 imm => Sys2Proof.Machine.execBlt rs1 rs2 imm s
  | .bge rs1 rs2 imm => Sys2Proof.Machine.execBge rs1 rs2 imm s
  | .bltu rs1 rs2 imm => Sys2Proof.Machine.execBltu rs1 rs2 imm s
  | .bgeu rs1 rs2 imm => Sys2Proof.Machine.execBgeu rs1 rs2 imm s
  | .addiw rd rs1 imm => Sys2Proof.Machine.execAddiw rd rs1 imm s
  | .slliw rd rs1 shamt => Sys2Proof.Machine.execSlliw rd rs1 shamt s
  | .srliw rd rs1 shamt => Sys2Proof.Machine.execSrliw rd rs1 shamt s
  | .sraiw rd rs1 shamt => Sys2Proof.Machine.execSraiw rd rs1 shamt s
  | .addw rd rs1 rs2 => Sys2Proof.Machine.execAddw rd rs1 rs2 s
  | .subw rd rs1 rs2 => Sys2Proof.Machine.execSubw rd rs1 rs2 s
  | .sllw rd rs1 rs2 => Sys2Proof.Machine.execSllw rd rs1 rs2 s
  | .srlw rd rs1 rs2 => Sys2Proof.Machine.execSrlw rd rs1 rs2 s
  | .sraw rd rs1 rs2 => Sys2Proof.Machine.execSraw rd rs1 rs2 s
  | .lwu rd rs1 imm => Sys2Proof.Machine.execLwu rd rs1 imm s
  | .ld rd rs1 imm => Sys2Proof.Machine.execLd rd rs1 imm s
  | .sd rs1 rs2 imm => Sys2Proof.Machine.execSd rs1 rs2 imm s
  | .mul rd rs1 rs2 => Sys2Proof.Machine.execMul rd rs1 rs2 s
  | .mulh rd rs1 rs2 => Sys2Proof.Machine.execMulh rd rs1 rs2 s
  | .mulhsu rd rs1 rs2 => Sys2Proof.Machine.execMulhsu rd rs1 rs2 s
  | .mulhu rd rs1 rs2 => Sys2Proof.Machine.execMulhu rd rs1 rs2 s
  | .div rd rs1 rs2 => Sys2Proof.Machine.execDiv rd rs1 rs2 s
  | .divu rd rs1 rs2 => Sys2Proof.Machine.execDivu rd rs1 rs2 s
  | .rem rd rs1 rs2 => Sys2Proof.Machine.execRem rd rs1 rs2 s
  | .remu rd rs1 rs2 => Sys2Proof.Machine.execRemu rd rs1 rs2 s
  | .mulw rd rs1 rs2 => Sys2Proof.Machine.execMulw rd rs1 rs2 s
  | .divw rd rs1 rs2 => Sys2Proof.Machine.execDivw rd rs1 rs2 s
  | .divuw rd rs1 rs2 => Sys2Proof.Machine.execDivuw rd rs1 rs2 s
  | .remw rd rs1 rs2 => Sys2Proof.Machine.execRemw rd rs1 rs2 s
  | .remuw rd rs1 rs2 => Sys2Proof.Machine.execRemuw rd rs1 rs2 s
  | .lr_w aq rl rd rs1 => Sys2Proof.Machine.execLrW aq rl rd rs1 s
  | .sc_w aq rl rd rs1 rs2 => Sys2Proof.Machine.execScW aq rl rd rs1 rs2 s
  | .amoswap_w aq rl rd rs1 rs2 => Sys2Proof.Machine.execAmoswapW aq rl rd rs1 rs2 s
  | .amoadd_w aq rl rd rs1 rs2 => Sys2Proof.Machine.execAmoaddW aq rl rd rs1 rs2 s
  | .amoxor_w aq rl rd rs1 rs2 => Sys2Proof.Machine.execAmoxorW aq rl rd rs1 rs2 s
  | .amoand_w aq rl rd rs1 rs2 => Sys2Proof.Machine.execAmoandW aq rl rd rs1 rs2 s
  | .amoor_w aq rl rd rs1 rs2 => Sys2Proof.Machine.execAmoorW aq rl rd rs1 rs2 s
  | .amomin_w aq rl rd rs1 rs2 => Sys2Proof.Machine.execAmominW aq rl rd rs1 rs2 s
  | .amomax_w aq rl rd rs1 rs2 => Sys2Proof.Machine.execAmomaxW aq rl rd rs1 rs2 s
  | .amominu_w aq rl rd rs1 rs2 => Sys2Proof.Machine.execAmominuW aq rl rd rs1 rs2 s
  | .amomaxu_w aq rl rd rs1 rs2 => Sys2Proof.Machine.execAmomaxuW aq rl rd rs1 rs2 s
  | .lr_d aq rl rd rs1 => Sys2Proof.Machine.execLrD aq rl rd rs1 s
  | .sc_d aq rl rd rs1 rs2 => Sys2Proof.Machine.execScD aq rl rd rs1 rs2 s
  | .amoswap_d aq rl rd rs1 rs2 => Sys2Proof.Machine.execAmoswapD aq rl rd rs1 rs2 s
  | .amoadd_d aq rl rd rs1 rs2 => Sys2Proof.Machine.execAmoaddD aq rl rd rs1 rs2 s
  | .amoxor_d aq rl rd rs1 rs2 => Sys2Proof.Machine.execAmoxorD aq rl rd rs1 rs2 s
  | .amoand_d aq rl rd rs1 rs2 => Sys2Proof.Machine.execAmoandD aq rl rd rs1 rs2 s
  | .amoor_d aq rl rd rs1 rs2 => Sys2Proof.Machine.execAmoorD aq rl rd rs1 rs2 s
  | .amomin_d aq rl rd rs1 rs2 => Sys2Proof.Machine.execAmominD aq rl rd rs1 rs2 s
  | .amomax_d aq rl rd rs1 rs2 => Sys2Proof.Machine.execAmomaxD aq rl rd rs1 rs2 s
  | .amominu_d aq rl rd rs1 rs2 => Sys2Proof.Machine.execAmominuD aq rl rd rs1 rs2 s
  | .amomaxu_d aq rl rd rs1 rs2 => Sys2Proof.Machine.execAmomaxuD aq rl rd rs1 rs2 s
  | .fmadd_s rd rs1 rs2 rs3 rm => Sys2Proof.Machine.execFmaddS rd rs1 rs2 rs3 rm s
  | .fmsub_s rd rs1 rs2 rs3 rm => Sys2Proof.Machine.execFmsubS rd rs1 rs2 rs3 rm s
  | .fnmsub_s rd rs1 rs2 rs3 rm => Sys2Proof.Machine.execFnmsubS rd rs1 rs2 rs3 rm s
  | .fnmadd_s rd rs1 rs2 rs3 rm => Sys2Proof.Machine.execFnmaddS rd rs1 rs2 rs3 rm s
  | .fadd_s rd rs1 rs2 rm => Sys2Proof.Machine.execFaddS rd rs1 rs2 rm s
  | .fsub_s rd rs1 rs2 rm => Sys2Proof.Machine.execFsubS rd rs1 rs2 rm s
  | .fmul_s rd rs1 rs2 rm => Sys2Proof.Machine.execFmulS rd rs1 rs2 rm s
  | .fdiv_s rd rs1 rs2 rm => Sys2Proof.Machine.execFdivS rd rs1 rs2 rm s
  | .fsqrt_s rd rs1 rm => Sys2Proof.Machine.execFsqrtS rd rs1 rm s
  | .fsgnj_s rd rs1 rs2 => Sys2Proof.Machine.execFsgnjS rd rs1 rs2 s
  | .fsgnjn_s rd rs1 rs2 => Sys2Proof.Machine.execFsgnjnS rd rs1 rs2 s
  | .fsgnjx_s rd rs1 rs2 => Sys2Proof.Machine.execFsgnjxS rd rs1 rs2 s
  | .fmin_s rd rs1 rs2 => Sys2Proof.Machine.execFminS rd rs1 rs2 s
  | .fmax_s rd rs1 rs2 => Sys2Proof.Machine.execFmaxS rd rs1 rs2 s
  | .feq_s rd rs1 rs2 => Sys2Proof.Machine.execFeqS rd rs1 rs2 s
  | .flt_s rd rs1 rs2 => Sys2Proof.Machine.execFltS rd rs1 rs2 s
  | .fle_s rd rs1 rs2 => Sys2Proof.Machine.execFleS rd rs1 rs2 s
  | .fclass_s rd rs1 => Sys2Proof.Machine.execFclassS rd rs1 s
  | .fcvt_w_s rd rs1 rm => Sys2Proof.Machine.execFcvtWS rd rs1 rm s
  | .fcvt_wu_s rd rs1 rm => Sys2Proof.Machine.execFcvtWuS rd rs1 rm s
  | .fcvt_l_s rd rs1 rm => Sys2Proof.Machine.execFcvtLS rd rs1 rm s
  | .fcvt_lu_s rd rs1 rm => Sys2Proof.Machine.execFcvtLuS rd rs1 rm s
  | .fcvt_s_w rd rs1 rm => Sys2Proof.Machine.execFcvtSW rd rs1 rm s
  | .fcvt_s_wu rd rs1 rm => Sys2Proof.Machine.execFcvtSWu rd rs1 rm s
  | .fcvt_s_l rd rs1 rm => Sys2Proof.Machine.execFcvtSL rd rs1 rm s
  | .fcvt_s_lu rd rs1 rm => Sys2Proof.Machine.execFcvtSLu rd rs1 rm s
  | .fmv_x_w rd rs1 => Sys2Proof.Machine.execFmvXW rd rs1 s
  | .fmv_w_x rd rs1 => Sys2Proof.Machine.execFmvWX rd rs1 s
  | .fmadd_d rd rs1 rs2 rs3 rm => Sys2Proof.Machine.execFmaddD rd rs1 rs2 rs3 rm s
  | .fmsub_d rd rs1 rs2 rs3 rm => Sys2Proof.Machine.execFmsubD rd rs1 rs2 rs3 rm s
  | .fnmsub_d rd rs1 rs2 rs3 rm => Sys2Proof.Machine.execFnmsubD rd rs1 rs2 rs3 rm s
  | .fnmadd_d rd rs1 rs2 rs3 rm => Sys2Proof.Machine.execFnmaddD rd rs1 rs2 rs3 rm s
  | .fadd_d rd rs1 rs2 rm => Sys2Proof.Machine.execFaddD rd rs1 rs2 rm s
  | .fsub_d rd rs1 rs2 rm => Sys2Proof.Machine.execFsubD rd rs1 rs2 rm s
  | .fmul_d rd rs1 rs2 rm => Sys2Proof.Machine.execFmulD rd rs1 rs2 rm s
  | .fdiv_d rd rs1 rs2 rm => Sys2Proof.Machine.execFdivD rd rs1 rs2 rm s
  | .fsqrt_d rd rs1 rm => Sys2Proof.Machine.execFsqrtD rd rs1 rm s
  | .fsgnj_d rd rs1 rs2 => Sys2Proof.Machine.execFsgnjD rd rs1 rs2 s
  | .fsgnjn_d rd rs1 rs2 => Sys2Proof.Machine.execFsgnjnD rd rs1 rs2 s
  | .fsgnjx_d rd rs1 rs2 => Sys2Proof.Machine.execFsgnjxD rd rs1 rs2 s
  | .fmin_d rd rs1 rs2 => Sys2Proof.Machine.execFminD rd rs1 rs2 s
  | .fmax_d rd rs1 rs2 => Sys2Proof.Machine.execFmaxD rd rs1 rs2 s
  | .feq_d rd rs1 rs2 => Sys2Proof.Machine.execFeqD rd rs1 rs2 s
  | .flt_d rd rs1 rs2 => Sys2Proof.Machine.execFltD rd rs1 rs2 s
  | .fle_d rd rs1 rs2 => Sys2Proof.Machine.execFleD rd rs1 rs2 s
  | .fclass_d rd rs1 => Sys2Proof.Machine.execFclassD rd rs1 s
  | .fcvt_w_d rd rs1 rm => Sys2Proof.Machine.execFcvtWD rd rs1 rm s
  | .fcvt_wu_d rd rs1 rm => Sys2Proof.Machine.execFcvtWuD rd rs1 rm s
  | .fcvt_l_d rd rs1 rm => Sys2Proof.Machine.execFcvtLD rd rs1 rm s
  | .fcvt_lu_d rd rs1 rm => Sys2Proof.Machine.execFcvtLuD rd rs1 rm s
  | .fcvt_d_w rd rs1 rm => Sys2Proof.Machine.execFcvtDW rd rs1 rm s
  | .fcvt_d_wu rd rs1 rm => Sys2Proof.Machine.execFcvtDWu rd rs1 rm s
  | .fcvt_d_l rd rs1 rm => Sys2Proof.Machine.execFcvtDL rd rs1 rm s
  | .fcvt_d_lu rd rs1 rm => Sys2Proof.Machine.execFcvtDLu rd rs1 rm s
  | .fcvt_s_d rd rs1 rm => Sys2Proof.Machine.execFcvtSD rd rs1 rm s
  | .fcvt_d_s rd rs1 rm => Sys2Proof.Machine.execFcvtDS rd rs1 rm s
  | .fmv_x_d rd rs1 => Sys2Proof.Machine.execFmvXD rd rs1 s
  | .fmv_d_x rd rs1 => Sys2Proof.Machine.execFmvDX rd rs1 s
  | .flw rd rs1 imm => Sys2Proof.Machine.execFlw rd rs1 imm s
  | .fsw rs1 rs2 imm => Sys2Proof.Machine.execFsw rs1 rs2 imm s
  | .fld rd rs1 imm => Sys2Proof.Machine.execFld rd rs1 imm s
  | .fsd rs1 rs2 imm => Sys2Proof.Machine.execFsd rs1 rs2 imm s
  | .fmadd_h rd rs1 rs2 rs3 rm => Sys2Proof.Machine.execFmaddH rd rs1 rs2 rs3 rm s
  | .fmsub_h rd rs1 rs2 rs3 rm => Sys2Proof.Machine.execFmsubH rd rs1 rs2 rs3 rm s
  | .fnmsub_h rd rs1 rs2 rs3 rm => Sys2Proof.Machine.execFnmsubH rd rs1 rs2 rs3 rm s
  | .fnmadd_h rd rs1 rs2 rs3 rm => Sys2Proof.Machine.execFnmaddH rd rs1 rs2 rs3 rm s
  | .fadd_h rd rs1 rs2 rm => Sys2Proof.Machine.execFaddH rd rs1 rs2 rm s
  | .fsub_h rd rs1 rs2 rm => Sys2Proof.Machine.execFsubH rd rs1 rs2 rm s
  | .fmul_h rd rs1 rs2 rm => Sys2Proof.Machine.execFmulH rd rs1 rs2 rm s
  | .fdiv_h rd rs1 rs2 rm => Sys2Proof.Machine.execFdivH rd rs1 rs2 rm s
  | .fsqrt_h rd rs1 rm => Sys2Proof.Machine.execFsqrtH rd rs1 rm s
  | .fsgnj_h rd rs1 rs2 => Sys2Proof.Machine.execFsgnjH rd rs1 rs2 s
  | .fsgnjn_h rd rs1 rs2 => Sys2Proof.Machine.execFsgnjnH rd rs1 rs2 s
  | .fsgnjx_h rd rs1 rs2 => Sys2Proof.Machine.execFsgnjxH rd rs1 rs2 s
  | .fmin_h rd rs1 rs2 => Sys2Proof.Machine.execFminH rd rs1 rs2 s
  | .fmax_h rd rs1 rs2 => Sys2Proof.Machine.execFmaxH rd rs1 rs2 s
  | .feq_h rd rs1 rs2 => Sys2Proof.Machine.execFeqH rd rs1 rs2 s
  | .flt_h rd rs1 rs2 => Sys2Proof.Machine.execFltH rd rs1 rs2 s
  | .fle_h rd rs1 rs2 => Sys2Proof.Machine.execFleH rd rs1 rs2 s
  | .fclass_h rd rs1 => Sys2Proof.Machine.execFclassH rd rs1 s
  | .fcvt_w_h rd rs1 rm => Sys2Proof.Machine.execFcvtWH rd rs1 rm s
  | .fcvt_wu_h rd rs1 rm => Sys2Proof.Machine.execFcvtWuH rd rs1 rm s
  | .fcvt_l_h rd rs1 rm => Sys2Proof.Machine.execFcvtLH rd rs1 rm s
  | .fcvt_lu_h rd rs1 rm => Sys2Proof.Machine.execFcvtLuH rd rs1 rm s
  | .fcvt_h_w rd rs1 rm => Sys2Proof.Machine.execFcvtHW rd rs1 rm s
  | .fcvt_h_wu rd rs1 rm => Sys2Proof.Machine.execFcvtHWu rd rs1 rm s
  | .fcvt_h_l rd rs1 rm => Sys2Proof.Machine.execFcvtHL rd rs1 rm s
  | .fcvt_h_lu rd rs1 rm => Sys2Proof.Machine.execFcvtHLu rd rs1 rm s
  | .fcvt_s_h rd rs1 rm => Sys2Proof.Machine.execFcvtSH rd rs1 rm s
  | .fcvt_h_s rd rs1 rm => Sys2Proof.Machine.execFcvtHS rd rs1 rm s
  | .fcvt_d_h rd rs1 rm => Sys2Proof.Machine.execFcvtDH rd rs1 rm s
  | .fcvt_h_d rd rs1 rm => Sys2Proof.Machine.execFcvtHD rd rs1 rm s
  | .fcvt_q_h rd rs1 rm => Sys2Proof.Machine.execFcvtQH rd rs1 rm s
  | .fcvt_h_q rd rs1 rm => Sys2Proof.Machine.execFcvtHQ rd rs1 rm s
  | .fmv_x_h rd rs1 => Sys2Proof.Machine.execFmvXH rd rs1 s
  | .fmv_h_x rd rs1 => Sys2Proof.Machine.execFmvHX rd rs1 s
  | .flh rd rs1 imm => Sys2Proof.Machine.execFlh rd rs1 imm s
  | .fsh rs1 rs2 imm => Sys2Proof.Machine.execFsh rs1 rs2 imm s
  | .add_uw rd rs1 rs2 => Sys2Proof.Machine.execAddUw rd rs1 rs2 s
  | .sh1add rd rs1 rs2 => Sys2Proof.Machine.execSh1add rd rs1 rs2 s
  | .sh2add rd rs1 rs2 => Sys2Proof.Machine.execSh2add rd rs1 rs2 s
  | .sh3add rd rs1 rs2 => Sys2Proof.Machine.execSh3add rd rs1 rs2 s
  | .sh1add_uw rd rs1 rs2 => Sys2Proof.Machine.execSh1addUw rd rs1 rs2 s
  | .sh2add_uw rd rs1 rs2 => Sys2Proof.Machine.execSh2addUw rd rs1 rs2 s
  | .sh3add_uw rd rs1 rs2 => Sys2Proof.Machine.execSh3addUw rd rs1 rs2 s
  | .slli_uw rd rs1 shamt => Sys2Proof.Machine.execSlliUw rd rs1 shamt s
  | .andn rd rs1 rs2 => Sys2Proof.Machine.execAndn rd rs1 rs2 s
  | .orn rd rs1 rs2 => Sys2Proof.Machine.execOrn rd rs1 rs2 s
  | .xnor rd rs1 rs2 => Sys2Proof.Machine.execXnor rd rs1 rs2 s
  | .clz rd rs1 => Sys2Proof.Machine.execClz rd rs1 s
  | .clzw rd rs1 => Sys2Proof.Machine.execClzw rd rs1 s
  | .ctz rd rs1 => Sys2Proof.Machine.execCtz rd rs1 s
  | .ctzw rd rs1 => Sys2Proof.Machine.execCtzw rd rs1 s
  | .cpop rd rs1 => Sys2Proof.Machine.execCpop rd rs1 s
  | .cpopw rd rs1 => Sys2Proof.Machine.execCpopw rd rs1 s
  | .sext_b rd rs1 => Sys2Proof.Machine.execSextB rd rs1 s
  | .sext_h rd rs1 => Sys2Proof.Machine.execSextH rd rs1 s
  | .max rd rs1 rs2 => Sys2Proof.Machine.execMax rd rs1 rs2 s
  | .maxu rd rs1 rs2 => Sys2Proof.Machine.execMaxu rd rs1 rs2 s
  | .min rd rs1 rs2 => Sys2Proof.Machine.execMin rd rs1 rs2 s
  | .minu rd rs1 rs2 => Sys2Proof.Machine.execMinu rd rs1 rs2 s
  | .zext_h_rv32 rd rs1 => Sys2Proof.Machine.execZextHRv32 rd rs1 s
  | .zext_h_rv64 rd rs1 => Sys2Proof.Machine.execZextHRv64 rd rs1 s
  | .rol rd rs1 rs2 => Sys2Proof.Machine.execRol rd rs1 rs2 s
  | .rolw rd rs1 rs2 => Sys2Proof.Machine.execRolw rd rs1 rs2 s
  | .ror rd rs1 rs2 => Sys2Proof.Machine.execRor rd rs1 rs2 s
  | .rori rd rs1 shamt => Sys2Proof.Machine.execRori rd rs1 shamt s
  | .roriw rd rs1 shamt => Sys2Proof.Machine.execRoriw rd rs1 shamt s
  | .rorw rd rs1 rs2 => Sys2Proof.Machine.execRorw rd rs1 rs2 s
  | .orc_b rd rs1 => Sys2Proof.Machine.execOrcB rd rs1 s
  | .rev8_rv32 rd rs1 => Sys2Proof.Machine.execRev8Rv32 rd rs1 s
  | .rev8_rv64 rd rs1 => Sys2Proof.Machine.execRev8Rv64 rd rs1 s
  | .clmul rd rs1 rs2 => Sys2Proof.Machine.execClmul rd rs1 rs2 s
  | .clmulh rd rs1 rs2 => Sys2Proof.Machine.execClmulh rd rs1 rs2 s
  | .clmulr rd rs1 rs2 => Sys2Proof.Machine.execClmulr rd rs1 rs2 s
  | .bclr rd rs1 rs2 => Sys2Proof.Machine.execBclr rd rs1 rs2 s
  | .bclri rd rs1 shamt => Sys2Proof.Machine.execBclri rd rs1 shamt s
  | .bext rd rs1 rs2 => Sys2Proof.Machine.execBext rd rs1 rs2 s
  | .bexti rd rs1 shamt => Sys2Proof.Machine.execBexti rd rs1 shamt s
  | .binv rd rs1 rs2 => Sys2Proof.Machine.execBinv rd rs1 rs2 s
  | .binvi rd rs1 shamt => Sys2Proof.Machine.execBinvi rd rs1 shamt s
  | .bset rd rs1 rs2 => Sys2Proof.Machine.execBset rd rs1 rs2 s
  | .bseti rd rs1 shamt => Sys2Proof.Machine.execBseti rd rs1 shamt s
  | .czero_eqz rd rs1 rs2 => Sys2Proof.Machine.execCzeroEqz rd rs1 rs2 s
  | .czero_nez rd rs1 rs2 => Sys2Proof.Machine.execCzeroNez rd rs1 rs2 s
  | .c_addi4spn rd imm => Sys2Proof.Machine.execCAddi4spn rd imm s
  | .c_fld rd rs1 uimm => Sys2Proof.Machine.execCFld rd rs1 uimm s
  | .c_lw rd rs1 uimm => Sys2Proof.Machine.execCLw rd rs1 uimm s
  | .c_flw rd rs1 uimm => Sys2Proof.Machine.execCFlw rd rs1 uimm s
  | .c_ld rd rs1 uimm => Sys2Proof.Machine.execCLd rd rs1 uimm s
  | .c_fsd rs1 rs2 uimm => Sys2Proof.Machine.execCFsd rs1 rs2 uimm s
  | .c_sw rs1 rs2 uimm => Sys2Proof.Machine.execCSw rs1 rs2 uimm s
  | .c_fsw rs1 rs2 uimm => Sys2Proof.Machine.execCFsw rs1 rs2 uimm s
  | .c_sd rs1 rs2 uimm => Sys2Proof.Machine.execCSd rs1 rs2 uimm s
  | .c_nop imm => Sys2Proof.Machine.execCNop imm s
  | .c_addi rd imm => Sys2Proof.Machine.execCAddi rd imm s
  | .c_jal imm => Sys2Proof.Machine.execCJal imm s
  | .c_addiw rd imm => Sys2Proof.Machine.execCAddiw rd imm s
  | .c_li rd imm => Sys2Proof.Machine.execCLi rd imm s
  | .c_addi16sp imm => Sys2Proof.Machine.execCAddi16sp imm s
  | .c_lui rd imm => Sys2Proof.Machine.execCLui rd imm s
  | .c_srli rd shamt => Sys2Proof.Machine.execCSrli rd shamt s
  | .c_srai rd shamt => Sys2Proof.Machine.execCSrai rd shamt s
  | .c_andi rd imm => Sys2Proof.Machine.execCAndi rd imm s
  | .c_sub rd rs2 => Sys2Proof.Machine.execCSub rd rs2 s
  | .c_xor rd rs2 => Sys2Proof.Machine.execCXor rd rs2 s
  | .c_or rd rs2 => Sys2Proof.Machine.execCOr rd rs2 s
  | .c_and rd rs2 => Sys2Proof.Machine.execCAnd rd rs2 s
  | .c_subw rd rs2 => Sys2Proof.Machine.execCSubw rd rs2 s
  | .c_addw rd rs2 => Sys2Proof.Machine.execCAddw rd rs2 s
  | .c_j imm => Sys2Proof.Machine.execCJ imm s
  | .c_beqz rs1 imm => Sys2Proof.Machine.execCBeqz rs1 imm s
  | .c_bnez rs1 imm => Sys2Proof.Machine.execCBnez rs1 imm s
  | .c_slli rd shamt => Sys2Proof.Machine.execCSlli rd shamt s
  | .c_fldsp rd uimm => Sys2Proof.Machine.execCFldsp rd uimm s
  | .c_lwsp rd uimm => Sys2Proof.Machine.execCLwsp rd uimm s
  | .c_flwsp rd uimm => Sys2Proof.Machine.execCFlwsp rd uimm s
  | .c_ldsp rd uimm => Sys2Proof.Machine.execCLdsp rd uimm s
  | .c_jr rs1 => Sys2Proof.Machine.execCJr rs1 s
  | .c_mv rd rs2 => Sys2Proof.Machine.execCMv rd rs2 s
  | .c_ebreak => Sys2Proof.Machine.execCEbreak s
  | .c_jalr rs1 => Sys2Proof.Machine.execCJalr rs1 s
  | .c_add rd rs2 => Sys2Proof.Machine.execCAdd rd rs2 s
  | .c_fsdsp rs2 uimm => Sys2Proof.Machine.execCFsdsp rs2 uimm s
  | .c_swsp rs2 uimm => Sys2Proof.Machine.execCSwsp rs2 uimm s
  | .c_fswsp rs2 uimm => Sys2Proof.Machine.execCFswsp rs2 uimm s
  | .c_sdsp rs2 uimm => Sys2Proof.Machine.execCSdsp rs2 uimm s
  | .c_lbu rd rs1 uimm => Sys2Proof.Machine.execCLbu rd rs1 uimm s
  | .c_lhu rd rs1 uimm => Sys2Proof.Machine.execCLhu rd rs1 uimm s
  | .c_lh rd rs1 uimm => Sys2Proof.Machine.execCLh rd rs1 uimm s
  | .c_sb rs1 rs2 uimm => Sys2Proof.Machine.execCSb rs1 rs2 uimm s
  | .c_sh rs1 rs2 uimm => Sys2Proof.Machine.execCSh rs1 rs2 uimm s
  | .c_zext_b rd => Sys2Proof.Machine.execCZextB rd s
  | .c_sext_b rd => Sys2Proof.Machine.execCSextB rd s
  | .c_zext_h rd => Sys2Proof.Machine.execCZextH rd s
  | .c_sext_h rd => Sys2Proof.Machine.execCSextH rd s
  | .c_zext_w rd => Sys2Proof.Machine.execCZextW rd s
  | .c_not rd => Sys2Proof.Machine.execCNot rd s
  | .c_mul rd rs2 => Sys2Proof.Machine.execCMul rd rs2 s
  | .cm_push rlist spimm => Sys2Proof.Machine.execCmPush rlist spimm s
  | .cm_pop rlist spimm => Sys2Proof.Machine.execCmPop rlist spimm s
  | .cm_popretz rlist spimm => Sys2Proof.Machine.execCmPopretz rlist spimm s
  | .cm_popret rlist spimm => Sys2Proof.Machine.execCmPopret rlist spimm s
  | .cm_mvsa01 r1s r2s => Sys2Proof.Machine.execCmMvsa01 r1s r2s s
  | .cm_mva01s r1s r2s => Sys2Proof.Machine.execCmMva01s r1s r2s s
  | .cm_jt index => Sys2Proof.Machine.execCmJt index s
  | .cm_jalt index => Sys2Proof.Machine.execCmJalt index s

end Sys2Proof.Machine
end

