-- ==== Sys2Proof/Machine/Cycle.lean ====
section
/-! DEFINITION. The parts of one step (00_scope.md R26): the inputs, waiting, the fetch, the execution of what was
fetched, and what advances by itself between two instructions. -/

namespace Sys2Proof.Machine

open Sys2Proof

/-- The inputs of this step: the next sample, or the levels stay (10_state.md R86; log 5). -/
def State.sample (s : State) : State :=
  match s.env with
  | [] => s
  | l :: rest => { s with lines := l, env := rest }

/-- A waiting hart leaves the waiting state (60_exceptions.md R765; log 11). -/
def State.wakes (s : State) : Bool := s.pending != 0 || Config.spuriousWake s.draws

/-- The instruction at `pc`, or the exception and trap value of its fetch (30_encoding.md R150). The second parcel is read
whenever bits [1:0] of the first are 11 (20_memory.md R115), and a fault there comes before the illegal instruction that an
encoding longer than 32 bits is, with its first parcel for trap value (60_exceptions.md R721 (c), R735). -/
def State.fetch (s : State) : Except (Exc × Word) Code :=
  match s.read .fetch s.pc 2 with
  | .error x => .error x
  | .ok lo =>
    match parcelKind (lo.setWidth 16) with
    | .half => .ok (.half (lo.setWidth 16))
    | .long =>
      match s.read .fetch (s.after 2) 2 with
      | .error x => .error x
      | .ok _ => .error (.illegalInstruction, zext16 lo)
    | .word =>
      match s.read .fetch (s.after 2) 2 with
      | .error x => .error x
      | .ok hi => .ok (.word (hi.setWidth 16 ++ lo.setWidth 16))

/-- Decode and execute: bits that are no instruction of the configuration are illegal (00_scope.md R26 steps 3 and 4). -/
noncomputable def execCode (code : Code) (s : State) : Result :=
  match decode s.cfg code with
  | .error _ => illegal code.bits s
  | .ok i => exec i s

/-- The arms of `exec` for the compressed instructions (log 23). -/
def execHalf (i : CInstr) (s : State) : Result :=
  match i with
  | .c_addi4spn rd imm => execCAddi4spn rd imm s
  | .c_fld rd rs1 uimm => execCFld rd rs1 uimm s
  | .c_lw rd rs1 uimm => execCLw rd rs1 uimm s
  | .c_flw rd rs1 uimm => execCFlw rd rs1 uimm s
  | .c_ld rd rs1 uimm => execCLd rd rs1 uimm s
  | .c_fsd rs1 rs2 uimm => execCFsd rs1 rs2 uimm s
  | .c_sw rs1 rs2 uimm => execCSw rs1 rs2 uimm s
  | .c_fsw rs1 rs2 uimm => execCFsw rs1 rs2 uimm s
  | .c_sd rs1 rs2 uimm => execCSd rs1 rs2 uimm s
  | .c_nop imm => execCNop imm s
  | .c_addi rd imm => execCAddi rd imm s
  | .c_jal imm => execCJal imm s
  | .c_addiw rd imm => execCAddiw rd imm s
  | .c_li rd imm => execCLi rd imm s
  | .c_addi16sp imm => execCAddi16sp imm s
  | .c_lui rd imm => execCLui rd imm s
  | .c_srli rd shamt => execCSrli rd shamt s
  | .c_srai rd shamt => execCSrai rd shamt s
  | .c_andi rd imm => execCAndi rd imm s
  | .c_sub rd rs2 => execCSub rd rs2 s
  | .c_xor rd rs2 => execCXor rd rs2 s
  | .c_or rd rs2 => execCOr rd rs2 s
  | .c_and rd rs2 => execCAnd rd rs2 s
  | .c_subw rd rs2 => execCSubw rd rs2 s
  | .c_addw rd rs2 => execCAddw rd rs2 s
  | .c_j imm => execCJ imm s
  | .c_beqz rs1 imm => execCBeqz rs1 imm s
  | .c_bnez rs1 imm => execCBnez rs1 imm s
  | .c_slli rd shamt => execCSlli rd shamt s
  | .c_fldsp rd uimm => execCFldsp rd uimm s
  | .c_lwsp rd uimm => execCLwsp rd uimm s
  | .c_flwsp rd uimm => execCFlwsp rd uimm s
  | .c_ldsp rd uimm => execCLdsp rd uimm s
  | .c_jr rs1 => execCJr rs1 s
  | .c_mv rd rs2 => execCMv rd rs2 s
  | .c_ebreak => execCEbreak s
  | .c_jalr rs1 => execCJalr rs1 s
  | .c_add rd rs2 => execCAdd rd rs2 s
  | .c_fsdsp rs2 uimm => execCFsdsp rs2 uimm s
  | .c_swsp rs2 uimm => execCSwsp rs2 uimm s
  | .c_fswsp rs2 uimm => execCFswsp rs2 uimm s
  | .c_sdsp rs2 uimm => execCSdsp rs2 uimm s
  | .c_lbu rd rs1 uimm => execCLbu rd rs1 uimm s
  | .c_lhu rd rs1 uimm => execCLhu rd rs1 uimm s
  | .c_lh rd rs1 uimm => execCLh rd rs1 uimm s
  | .c_sb rs1 rs2 uimm => execCSb rs1 rs2 uimm s
  | .c_sh rs1 rs2 uimm => execCSh rs1 rs2 uimm s
  | .c_zext_b rd => execCZextB rd s
  | .c_sext_b rd => execCSextB rd s
  | .c_zext_h rd => execCZextH rd s
  | .c_sext_h rd => execCSextH rd s
  | .c_zext_w rd => execCZextW rd s
  | .c_not rd => execCNot rd s
  | .c_mul rd rs2 => execCMul rd rs2 s
  | .cm_push rlist spimm => execCmPush rlist spimm s
  | .cm_pop rlist spimm => execCmPop rlist spimm s
  | .cm_popretz rlist spimm => execCmPopretz rlist spimm s
  | .cm_popret rlist spimm => execCmPopret rlist spimm s
  | .cm_mvsa01 r1s r2s => execCmMvsa01 r1s r2s s
  | .cm_mva01s r1s r2s => execCmMva01s r1s r2s s
  | .cm_jt index => execCmJt index s
  | .cm_jalt index => execCmJalt index s

/-- `execCode` as code that Lean compiles (log 23). -/
def execCompiled (code : Code) (s : State) : Result :=
  match code with
  | .half w =>
    match decode16 s.cfg w with
    | .error _ => illegal code.bits s
    | .ok i => execHalf i s
  | .word w =>
    match decode32 s.cfg w with
    | .error _ => illegal code.bits s
    | .ok i => exec i s

theorem exec_toInstr (i : CInstr) (s : State) : exec i.toInstr s = execHalf i s := by cases i <;> rfl

@[csimp] theorem execCode_eq_execCompiled : @execCode = @execCompiled := by
  funext code s
  cases code with
  | half w =>
    simp only [execCode, execCompiled, decode]
    cases decode16 s.cfg w with
    | error e => rfl
    | ok i => exact exec_toInstr i s
  | word w => rfl

/-- `mcycle` advances by a positive amount unless `mcountinhibit.CY` (10_state.md R80; log 9). -/
def State.advanceCycle (s : State) : State :=
  if s.csr.mcountinhibit.getLsbD 0 then s
  else
    let a := Config.mcycleAdvance s.draws
    { s with csr := { s.csr with mcycle := s.csr.mcycle + (if a = 0 then 1 else a) } }

/-- `mtime` advances by an unspecified amount (60_exceptions.md R771; log 9). -/
def State.advanceTime (s : State) : State :=
  { s with clint := { s.clint with mtime := s.clint.mtime + Config.mtimeAdvance s.draws } }

/-- The next step draws fresh free values (log 6). -/
def State.redraw (s : State) : State := { s with draws := s.draws + 1 }

/-- What advances by itself after a step. -/
def State.tick (s : State) : State := s.advanceCycle.advanceTime.redraw

/-- The same while the hart waits: it changes no state of its own (60_exceptions.md R765). -/
def State.tickWaiting (s : State) : State := s.advanceTime.redraw

/-- The outcome of an instruction, with what advances by itself. -/
def afterStep : Result → Result
  | .next s => .next s.tick
  | .fault f => .fault f
  | .refused r => .refused r

/-- An awake hart runs: an interrupt, or the instruction at `pc` (00_scope.md R26). -/
def State.run (s : State) : Result :=
  match s.interrupt with
  | some t => .next t
  | none =>
    match s.fetch with
    | .error (e, tval) => raise e tval s
    | .ok code => execCode code s

end Sys2Proof.Machine
end

