-- ==== Sys2Proof/Machine/Step.lean ====
section
/-! DEFINITION. One step of the hart (00_scope.md R26), and how a program comes into its memory. -/

namespace Sys2Proof.Machine

open Sys2Proof

/-- One step. A configuration the spec does not admit is refused (93_implementation_defined.md part 2). -/
def step (s : State) : Host.Outcome State Fault Refusal :=
  if s.cfg.wf then
    if s.sample.waiting && !s.sample.wakes then .next s.sample.tickWaiting
    else afterStep { s.sample with waiting := false }.run
  else .refused .illFormedConfig

/-- The configuration a table word is placed under: the state's own if it reads the word as `decodeTableWord` does, else
the first that does (log 22). -/
noncomputable def fetchConfig (c : Config) (bytes : List Byte) : Config :=
  match firstDecoding tableConfigs bytes with
  | none => c
  | some (c', i) =>
    match decodeBytes c bytes with
    | .ok (j, _) => if j = i then c else c'
    | .error _ => c'

/-- The physical address of an instruction parcel; where the fetch would fail, the address itself. -/
def State.parcelAddr (s : State) (va : Word) : Nat :=
  match s.translate .fetch va with
  | .ok pa => pa
  | .error _ => va.toNat

/-- The bytes of a table word placed where the next instruction is fetched, under a configuration that has the
instruction, with the hart awake and no interrupt about to be taken (log 22). -/
noncomputable def State.withFetchWord (s : State) (nbits w : Nat) : State :=
  let t := { s with cfg := fetchConfig s.cfg (tableBytes nbits w), waiting := false }
  let v := BitVec.ofNat 64 (w % 2 ^ nbits % 2 ^ 32)
  let u := { t with mem := memWrite (memWrite t.mem (t.parcelAddr t.pc) 2 v) (t.parcelAddr (t.after 2)) 2 (v >>> 16) }
  if u.sample.interrupt.isSome then { u with csr := { u.csr with mie := 0 } } else u

end Sys2Proof.Machine
end

