-- ==== Sys2Proof/Safety.lean ====
section
/-! DEFINITION. What counts as a safe run, the invariant of the machine, and the vocabulary the claims are stated in:
what an instruction writes and what it leaves alone. -/

namespace Sys2Proof

namespace Config

/-- The configuration has the mode (10_state.md R50). -/
def hasMode (c : Config) : Machine.Priv → Bool
  | .m => true
  | .s => c.extS
  | .u => c.extU

/-- The XLEN-bit value congruent to an integer: what "modulo 2^XLEN" keeps (00_scope.md R22). -/
def word (c : Config) (i : Int) : Word := BitVec.ofNat 64 (i % 2 ^ c.xlen.bits).toNat

end Config

/-- The 32-bit value congruent to an integer, sign-extended (41_rv64i.md, the W instructions). -/
def word32 (i : Int) : Word := BitVec.ofInt 64 (i.bmod (2 ^ 32))

/-- The quotient of two signed numbers of `l` bits, with the corner cases of 42_m.md R321. -/
def quotientS (l : Nat) (a b : Int) : Int :=
  if b = 0 then -1 else if a = -2 ^ (l - 1) ∧ b = -1 then a else a.tdiv b

/-- The remainder of two signed numbers of `l` bits, with the corner cases of 42_m.md R321. -/
def remainderS (l : Nat) (a b : Int) : Int :=
  if b = 0 then a else if a = -2 ^ (l - 1) ∧ b = -1 then 0 else a - b * a.tdiv b

/-- The bits of a value are those of a function, below XLEN (00_scope.md R20). -/
def HasBits (c : Config) (v : Word) (f : Nat → Bool) : Prop :=
  ∀ k, v.getLsbD k = (decide (k < c.xlen.bits) && f k)

namespace Machine

/-! ### Safe runs -/

/-- A state from which the next step answers a next state. The spec never stops the machine: an instruction that cannot
have its effect traps (60_exceptions.md). -/
def State.answers (s : State) : Prop := ∃ t, step s = .next t

/-- Every one of the next `k` steps answers a next state. -/
def State.safeFor (s : State) : Nat → Prop
  | 0 => True
  | k + 1 => ∃ t, step s = .next t ∧ t.safeFor k

/-! ### The invariant -/

/-- Fields of `mstatus` a configuration does not have hold 0, and `MPP` a configured mode (10_state.md R54). -/
structure MStatus.Legal (c : Config) (ms : MStatus) : Prop where
  mpp : c.hasMode ms.mpp = true
  noS : c.extS = false →
    ms.sie = false ∧ ms.spie = false ∧ ms.spp = false ∧ ms.sum = false ∧ ms.mxr = false ∧ ms.tvm = false ∧ ms.tsr = false
  noU : c.extU = false → ms.mprv = false ∧ ms.tw = false
  noF : c.extF = false → ms.fs = 0#2

/-- The control and status registers hold legal values of XLEN bits (10_state.md R59 to R73). -/
structure Csrs.Legal (c : Config) (r : Csrs) : Prop where
  medeleg : r.medeleg &&& ~~~medelegMask = 0
  mideleg : r.mideleg &&& ~~~midelegMask = 0
  mie : r.mie &&& ~~~mieMask c = 0
  mtvec : r.mtvec.extractLsb' 0 2 = 0#2 ∨ r.mtvec.extractLsb' 0 2 = 1#2 ∧ c.mtvecVectored = true
  stvec : r.stvec.extractLsb' 0 2 = 0#2 ∨ r.stvec.extractLsb' 0 2 = 1#2 ∧ c.mtvecVectored = true
  mepc : r.mepc.getLsbD 0 = false
  sepc : r.sepc.getLsbD 0 = false
  satp : ∀ old, satpOf c old r.satp = r.satp
  mcounteren : low32 r.mcounteren = r.mcounteren
  scounteren : low32 r.scounteren = r.scounteren
  mcountinhibit : r.mcountinhibit &&& ~~~5#64 = 0
  jvt : r.jvt &&& 63#64 = 0
  width : ∀ w ∈ [r.mtvec, r.stvec, r.mscratch, r.sscratch, r.mepc, r.sepc, r.mcause, r.scause, r.mtval, r.stval, r.jvt],
    c.norm w = w

/-- What holds of the machine at reset and after every step: the configuration is one the spec admits, memory has its
canonical form, `pc` is aligned (10_state.md R46), every register holds a value of its width, the mode is a configured
one, the CSRs hold legal values (10_state.md R74), the reservation is a naturally aligned word or doubleword (43_a.md
R351, R353), and there is one timer and one software-interrupt register per hart (60_exceptions.md R770). -/
structure State.Inv (s : State) : Prop where
  config : s.cfg.wf = true
  memory : Memory.wf s.mem
  pcAligned : s.cfg.aligned s.pc = true
  pcWidth : s.cfg.norm s.pc = s.pc
  xWidth : ∀ r, s.cfg.norm (s.rx r) = s.rx r
  fWidth : ∀ r, s.cfg.fnorm (s.rf r) = s.rf r
  mode : s.cfg.hasMode s.priv = true
  status : s.csr.mstatus.Legal s.cfg
  csrs : s.csr.Legal s.cfg
  reservation : ∀ a n, s.resv = some (a, n) → (n = 4 ∨ n = 8) ∧ a.toNat % n = 0
  timers : s.clint.mtimecmp.length = s.cfg.harts ∧ s.clint.msip.length = s.cfg.harts

/-! ### Values -/

/-- `unsigned(x[r])` (00_scope.md R21). -/
def State.xu (s : State) (r : Reg) : Nat := s.cfg.toU (s.rx r)

/-- `signed(x[r])` (00_scope.md R21). -/
def State.xs (s : State) (r : Reg) : Int := s.cfg.toS (s.rx r)

/-- Bit `k` of `x[r]`; no register has bits from XLEN up. -/
def State.xbit (s : State) (r : Reg) (k : Nat) : Bool := (s.cfg.norm (s.rx r)).getLsbD k

/-- `XLEN`. -/
def State.xlen (s : State) : Nat := s.cfg.xlen.bits

/-- The result is the number of zeros above the highest set bit of the low `l` bits (46_b.md R552). -/
def LeadingZeros (s : State) (r : Reg) (l n : Nat) : Prop :=
  n ≤ l ∧ (∀ k, l - n ≤ k → k < l → s.xbit r k = false) ∧ (n < l → s.xbit r (l - 1 - n) = true)

/-- The result is the number of zeros below the lowest set bit of the low `l` bits (46_b.md R552). -/
def TrailingZeros (s : State) (r : Reg) (l n : Nat) : Prop :=
  n ≤ l ∧ (∀ k, k < n → s.xbit r k = false) ∧ (n < l → s.xbit r n = true)

/-- Bit `k` of the carry-less product (46_b.md R552): the parity of the pairs of set bits whose places add up to `k`. -/
def clmulBit (s : State) (a b : Reg) (k : Nat) : Bool :=
  (List.range s.xlen).countP (fun i => decide (i ≤ k) && s.xbit b i && s.xbit a (k - i)) % 2 == 1

/-- `n` bytes of main memory as a natural number, the byte at the lowest address least significant (20_memory.md
R106). -/
def leNat (m : List Host.Cell) (a : Nat) : Nat → Nat
  | 0 => 0
  | n + 1 => (memGet m a).toNat + 256 * leNat m (a + 1) n

/-- The same for `n` bytes of which byte `j` is at `pa j`. -/
def gatherNat (m : List Host.Cell) (pa : Nat → Nat) : Nat → Nat
  | 0 => 0
  | n + 1 => gatherNat m pa n + 256 ^ n * (memGet m (pa n)).toNat

/-- `leNat` as a two's complement number. -/
def leInt (m : List Host.Cell) (a n : Nat) : Int := (leNat m a n : Int).bmod (2 ^ (8 * n))

/-- The target of a jump may be fetched from: a multiple of IALIGN/8 (00_scope.md R16). -/
def State.fetchable (s : State) (t : Word) : Prop := t.toNat % (if s.cfg.extC then 2 else 4) = 0

/-! ### What an instruction writes -/

/-- `minstret` after an instruction that retires (10_state.md R71, R80). -/
def State.retired (s : State) : Word :=
  if s.csr.mcountinhibit.getLsbD 2 then s.csr.minstret else s.csr.minstret + 1

/-- From `s` to `t` at most the integer registers, `pc` and `minstret` change: no flag, no floating-point register, no
other CSR, no mode, no reservation, no device, no byte of memory. -/
structure OnlyX (s t : State) : Prop where
  rest : t = { s with x := t.x, pc := t.pc, csr := { s.csr with minstret := t.csr.minstret } }
  memory : ∀ a, memGet t.mem a = memGet s.mem a
  count : t.csr.minstret = s.retired

/-- `t` is `s` after an instruction whose next instruction is at `next` and that writes `v` to `x[rd]`. -/
structure WroteX (s t : State) (next : Word) (rd : Reg) (v : Word) : Prop extends OnlyX s t where
  pc : t.pc = next
  reg : ∀ r, t.rx r = if r = rd ∧ r ≠ 0#5 then v else s.rx r

/-- The address `n` bytes on (10_state.md R45). -/
def State.nextPc (s : State) (n : Nat) : Word := s.cfg.word (s.pc.toNat + n)

/-- The instruction, of `n` bytes, completes: it writes `v` to `x[rd]` and nothing else. With `rd = x0` nothing is
written (10_state.md R40). -/
def Computes (i : Instr) (s : State) (n : Nat) (rd : Reg) (v : Word) : Prop :=
  ∃ t, exec i s = .next t ∧ WroteX s t (s.nextPc n) rd v

/-- The same, the value given by its bits. -/
def ComputesBits (i : Instr) (s : State) (n : Nat) (rd : Reg) (f : Nat → Bool) : Prop :=
  ∃ v, HasBits s.cfg v f ∧ Computes i s n rd v

/-- The instruction completes with a jump to `target` and writes the address after it, `n` bytes on, to `x[rd]`. -/
def JumpsTo (i : Instr) (s : State) (n : Nat) (rd : Reg) (target : Word) : Prop :=
  ∃ t, exec i s = .next t ∧ WroteX s t target rd (s.nextPc n)

/-- The instruction completes and writes no register. -/
def Continues (i : Instr) (s : State) (next : Word) : Prop :=
  ∃ t, exec i s = .next t ∧ OnlyX s t ∧ t.pc = next ∧ ∀ r, t.rx r = s.rx r

/-- The instruction ends in this exception, taken as 60_exceptions.md R740 and R741 say. -/
def Traps (i : Instr) (s : State) (e : Exc) (tval : Word) : Prop := exec i s = .next (s.take e tval)

/-- From `s` to `t` at most the floating-point registers, the integer registers, `fflags`, `mstatus.FS`, `pc` and
`minstret` change. -/
structure OnlyF (s t : State) : Prop where
  rest :
    t =
      { s with
        x := t.x, f := t.f, pc := t.pc, fflags := t.fflags
        csr :=
          { s.csr with
            minstret := t.csr.minstret, mstatus := { s.csr.mstatus with fs := t.csr.mstatus.fs } } }
  memory : ∀ a, memGet t.mem a = memGet s.mem a
  count : t.csr.minstret = s.retired
  pc : t.pc = s.nextPc 4

/-- The instruction, of 4 bytes, completes: `f[rd]` holds `v` boxed, the flags are ORed into `fflags`, `mstatus.FS`
is 3 (44_fd.md R394, R395). -/
def ComputesF (i : Instr) (s : State) (f : Fmt) (rd : Reg) (r : Word × Flags) : Prop :=
  ∃ t, exec i s = .next t ∧ OnlyF s t ∧ (∀ k, t.rx k = s.rx k) ∧
    (∀ k, t.rf k = if k = rd then s.cfg.fnorm (box f r.1) else s.rf k) ∧
    t.fflags = s.fflags ||| r.2 ∧ t.csr.mstatus.fs = 3#2

/-- The instruction, of 4 bytes, completes: `x[rd]` holds `v` and the flags are ORed into `fflags`; `mstatus.FS` is 3 if
it raised a flag, else as before (44_fd.md R394, R395). -/
def ComputesFX (i : Instr) (s : State) (rd : Reg) (r : Word × Flags) : Prop :=
  ∃ t, exec i s = .next t ∧ OnlyF s t ∧ (∀ k, t.rf k = s.rf k) ∧
    (∀ k, t.rx k = if k = rd ∧ k ≠ 0#5 then s.cfg.norm r.1 else s.rx k) ∧
    t.fflags = s.fflags ||| r.2 ∧ t.csr.mstatus.fs = if r.2 = 0 then s.csr.mstatus.fs else 3#2

/-! ### Accesses -/

/-- The `n` bytes at a physical address are ordinary memory. -/
def State.inMain (s : State) (pa n : Nat) : Prop := isMain s.cfg pa n = true ∧ inClint s.cfg pa = false

/-- Every byte of memory after a store of the low `n` bytes of `v` at `pa`: those bytes are the value's, least
significant first, and every other byte is as before (20_memory.md R106). -/
def StoredBytes (s t : State) (pa n : Nat) (v : Word) : Prop :=
  ∀ a, memGet t.mem a = if pa ≤ a ∧ a < pa + n then v.extractLsb' (8 * (a - pa)) 8 else memGet s.mem a

/-- The instruction, of `len` bytes, completes a store of the low `n` bytes of `v` at the physical address `pa`: main
memory holds them there, and nothing else changes but `pc` and `minstret`. -/
def Stores (i : Instr) (s : State) (len pa n : Nat) (v : Word) : Prop :=
  ∃ t, exec i s = .next t ∧ StoredBytes s t pa n v ∧ t.pc = s.nextPc len ∧ t.csr.minstret = s.retired ∧
    t = { s with mem := t.mem, pc := t.pc, csr := { s.csr with minstret := t.csr.minstret } }

/-- The effective address `x[base] + offset` modulo 2^XLEN (20_memory.md R100). -/
def State.addr (s : State) (base : Reg) (offset : Int) : Word := s.cfg.word (s.xu base + offset)

/-- One memory access of an instruction: the length of the instruction, the data register, the address, how many bytes,
and for a load whether the value is signed. -/
structure MemOp where
  len : Nat
  reg : Reg
  va : Word
  bytes : Nat
  signed : Bool := false
  deriving DecidableEq, Repr

/-- The loads into an integer register (40_rv_i.md R264 to R268, 41_rv64i.md R309, R310, 45_c.md, 48_zc.md R672 to
R674). -/
def State.loadOf (s : State) : Instr → Option MemOp
  | .lb rd rs1 imm => some ⟨4, rd, s.addr rs1 imm.toInt, 1, true⟩
  | .lh rd rs1 imm => some ⟨4, rd, s.addr rs1 imm.toInt, 2, true⟩
  | .lw rd rs1 imm => some ⟨4, rd, s.addr rs1 imm.toInt, 4, true⟩
  | .lbu rd rs1 imm => some ⟨4, rd, s.addr rs1 imm.toInt, 1, false⟩
  | .lhu rd rs1 imm => some ⟨4, rd, s.addr rs1 imm.toInt, 2, false⟩
  | .lwu rd rs1 imm => some ⟨4, rd, s.addr rs1 imm.toInt, 4, false⟩
  | .ld rd rs1 imm => some ⟨4, rd, s.addr rs1 imm.toInt, 8, true⟩
  | .c_lw rd rs1 uimm => some ⟨2, rd.reg, s.addr rs1.reg (4 * uimm.toNat), 4, true⟩
  | .c_ld rd rs1 uimm => some ⟨2, rd.reg, s.addr rs1.reg (8 * uimm.toNat), 8, true⟩
  | .c_lwsp rd uimm => some ⟨2, rd, s.addr State.sp (4 * uimm.toNat), 4, true⟩
  | .c_ldsp rd uimm => some ⟨2, rd, s.addr State.sp (8 * uimm.toNat), 8, true⟩
  | .c_lbu rd rs1 uimm => some ⟨2, rd.reg, s.addr rs1.reg uimm.toNat, 1, false⟩
  | .c_lhu rd rs1 uimm => some ⟨2, rd.reg, s.addr rs1.reg (2 * uimm.toNat), 2, false⟩
  | .c_lh rd rs1 uimm => some ⟨2, rd.reg, s.addr rs1.reg (2 * uimm.toNat), 2, true⟩
  | _ => none

/-- The stores of an integer register (40_rv_i.md R269 to R271, 41_rv64i.md R311, 45_c.md, 48_zc.md R675, R676). -/
def State.storeOf (s : State) : Instr → Option MemOp
  | .sb rs1 rs2 imm => some ⟨4, rs2, s.addr rs1 imm.toInt, 1, false⟩
  | .sh rs1 rs2 imm => some ⟨4, rs2, s.addr rs1 imm.toInt, 2, false⟩
  | .sw rs1 rs2 imm => some ⟨4, rs2, s.addr rs1 imm.toInt, 4, false⟩
  | .sd rs1 rs2 imm => some ⟨4, rs2, s.addr rs1 imm.toInt, 8, false⟩
  | .c_sw rs1 rs2 uimm => some ⟨2, rs2.reg, s.addr rs1.reg (4 * uimm.toNat), 4, false⟩
  | .c_sd rs1 rs2 uimm => some ⟨2, rs2.reg, s.addr rs1.reg (8 * uimm.toNat), 8, false⟩
  | .c_swsp rs2 uimm => some ⟨2, rs2, s.addr State.sp (4 * uimm.toNat), 4, false⟩
  | .c_sdsp rs2 uimm => some ⟨2, rs2, s.addr State.sp (8 * uimm.toNat), 8, false⟩
  | .c_sb rs1 rs2 uimm => some ⟨2, rs2.reg, s.addr rs1.reg uimm.toNat, 1, false⟩
  | .c_sh rs1 rs2 uimm => some ⟨2, rs2.reg, s.addr rs1.reg (2 * uimm.toNat), 2, false⟩
  | _ => none

/-- The loads into a floating-point register and their format (44_fd.md R458, R460, 47_zfh.md R653, 45_c.md). -/
def State.fpLoadOf (s : State) : Instr → Option (Fmt × MemOp)
  | .flw rd rs1 imm => some (.s, ⟨4, rd, s.addr rs1 imm.toInt, 4, false⟩)
  | .fld rd rs1 imm => some (.d, ⟨4, rd, s.addr rs1 imm.toInt, 8, false⟩)
  | .flh rd rs1 imm => some (.h, ⟨4, rd, s.addr rs1 imm.toInt, 2, false⟩)
  | .c_flw rd rs1 uimm => some (.s, ⟨2, rd.reg, s.addr rs1.reg (4 * uimm.toNat), 4, false⟩)
  | .c_fld rd rs1 uimm => some (.d, ⟨2, rd.reg, s.addr rs1.reg (8 * uimm.toNat), 8, false⟩)
  | .c_flwsp rd uimm => some (.s, ⟨2, rd, s.addr State.sp (4 * uimm.toNat), 4, false⟩)
  | .c_fldsp rd uimm => some (.d, ⟨2, rd, s.addr State.sp (8 * uimm.toNat), 8, false⟩)
  | _ => none

/-- The stores of a floating-point register (44_fd.md R459, R461, 47_zfh.md R654, 45_c.md). -/
def State.fpStoreOf (s : State) : Instr → Option MemOp
  | .fsw rs1 rs2 imm => some ⟨4, rs2, s.addr rs1 imm.toInt, 4, false⟩
  | .fsd rs1 rs2 imm => some ⟨4, rs2, s.addr rs1 imm.toInt, 8, false⟩
  | .fsh rs1 rs2 imm => some ⟨4, rs2, s.addr rs1 imm.toInt, 2, false⟩
  | .c_fsw rs1 rs2 uimm => some ⟨2, rs2.reg, s.addr rs1.reg (4 * uimm.toNat), 4, false⟩
  | .c_fsd rs1 rs2 uimm => some ⟨2, rs2.reg, s.addr rs1.reg (8 * uimm.toNat), 8, false⟩
  | .c_fswsp rs2 uimm => some ⟨2, rs2, s.addr State.sp (4 * uimm.toNat), 4, false⟩
  | .c_fsdsp rs2 uimm => some ⟨2, rs2, s.addr State.sp (8 * uimm.toNat), 8, false⟩
  | _ => none

/-- The data of an atomic memory operation: destination, address register, source, width in bytes and operator on
numbers of that width, old value first (43_a.md R362 to R370, R373 to R381). -/
structure AmoOp where
  rd : Reg
  rs1 : Reg
  rs2 : Reg
  bytes : Nat
  op : Nat → Nat → Nat

/-- The two's complement value of an `n`-byte number. -/
def signedOf (n a : Nat) : Int := (a : Int).bmod (2 ^ (8 * n))

/-- The nine operators (43_a.md R362 to R370). -/
def amoOps (n : Nat) : List (Nat → Nat → Nat) :=
  [fun _ v => v, fun t v => (t + v) % 2 ^ (8 * n), fun t v => t ^^^ v, fun t v => t &&& v, fun t v => t ||| v,
    fun t v => if signedOf n t < signedOf n v then t else v, fun t v => if signedOf n v < signedOf n t then t else v,
    fun t v => if t < v then t else v, fun t v => if v < t then t else v]

/-- The atomic memory operations. -/
def amoOf : Instr → Option AmoOp
  | .amoswap_w _ _ rd rs1 rs2 => some ⟨rd, rs1, rs2, 4, (amoOps 4)[0]⟩
  | .amoadd_w _ _ rd rs1 rs2 => some ⟨rd, rs1, rs2, 4, (amoOps 4)[1]⟩
  | .amoxor_w _ _ rd rs1 rs2 => some ⟨rd, rs1, rs2, 4, (amoOps 4)[2]⟩
  | .amoand_w _ _ rd rs1 rs2 => some ⟨rd, rs1, rs2, 4, (amoOps 4)[3]⟩
  | .amoor_w _ _ rd rs1 rs2 => some ⟨rd, rs1, rs2, 4, (amoOps 4)[4]⟩
  | .amomin_w _ _ rd rs1 rs2 => some ⟨rd, rs1, rs2, 4, (amoOps 4)[5]⟩
  | .amomax_w _ _ rd rs1 rs2 => some ⟨rd, rs1, rs2, 4, (amoOps 4)[6]⟩
  | .amominu_w _ _ rd rs1 rs2 => some ⟨rd, rs1, rs2, 4, (amoOps 4)[7]⟩
  | .amomaxu_w _ _ rd rs1 rs2 => some ⟨rd, rs1, rs2, 4, (amoOps 4)[8]⟩
  | .amoswap_d _ _ rd rs1 rs2 => some ⟨rd, rs1, rs2, 8, (amoOps 8)[0]⟩
  | .amoadd_d _ _ rd rs1 rs2 => some ⟨rd, rs1, rs2, 8, (amoOps 8)[1]⟩
  | .amoxor_d _ _ rd rs1 rs2 => some ⟨rd, rs1, rs2, 8, (amoOps 8)[2]⟩
  | .amoand_d _ _ rd rs1 rs2 => some ⟨rd, rs1, rs2, 8, (amoOps 8)[3]⟩
  | .amoor_d _ _ rd rs1 rs2 => some ⟨rd, rs1, rs2, 8, (amoOps 8)[4]⟩
  | .amomin_d _ _ rd rs1 rs2 => some ⟨rd, rs1, rs2, 8, (amoOps 8)[5]⟩
  | .amomax_d _ _ rd rs1 rs2 => some ⟨rd, rs1, rs2, 8, (amoOps 8)[6]⟩
  | .amominu_d _ _ rd rs1 rs2 => some ⟨rd, rs1, rs2, 8, (amoOps 8)[7]⟩
  | .amomaxu_d _ _ rd rs1 rs2 => some ⟨rd, rs1, rs2, 8, (amoOps 8)[8]⟩
  | _ => none

/-- `lr`: destination, address register, width. -/
def lrOf : Instr → Option (Reg × Reg × Nat)
  | .lr_w _ _ rd rs1 => some (rd, rs1, 4)
  | .lr_d _ _ rd rs1 => some (rd, rs1, 8)
  | _ => none

/-- `sc`: destination, address register, source, width. -/
def scOf : Instr → Option (Reg × Reg × Reg × Nat)
  | .sc_w _ _ rd rs1 rs2 => some (rd, rs1, rs2, 4)
  | .sc_d _ _ rd rs1 rs2 => some (rd, rs1, rs2, 8)
  | _ => none

/-- Every instruction that makes one data access: its kind, its address and its width. -/
def State.accessOf (s : State) (i : Instr) : Option (Access × Word × Nat) :=
  match s.loadOf i, s.storeOf i, s.fpLoadOf i, s.fpStoreOf i, amoOf i, lrOf i, scOf i with
  | some m, _, _, _, _, _, _ => some (.load, m.va, m.bytes)
  | _, some m, _, _, _, _, _ => some (.store, m.va, m.bytes)
  | _, _, some (_, m), _, _, _, _ => some (.load, m.va, m.bytes)
  | _, _, _, some m, _, _, _ => some (.store, m.va, m.bytes)
  | _, _, _, _, some a, _, _ => some (.amo, s.rx a.rs1, a.bytes)
  | _, _, _, _, _, some (_, rs1, n), _ => some (.lr, s.rx rs1, n)
  | _, _, _, _, _, _, some (_, rs1, _, n) => some (.sc, s.rx rs1, n)
  | _, _, _, _, _, _, _ => none

/-- The instruction is a floating-point load or store: it is illegal while the unit is off (44_fd.md R395). -/
def State.fpAccess (s : State) (i : Instr) : Prop := (s.fpLoadOf i).isSome ∨ (s.fpStoreOf i).isSome

/-- The misaligned exception of an access (20_memory.md R112): a load, an `lr` and a pop raise that of loads, a store, an
`sc`, an AMO and a push that of stores. A fetch and a table read are never misaligned. -/
def misalignedOf (k : Access) : Exc :=
  if k ∈ [.load, .lr, .pop] then .loadAddressMisaligned else .storeAmoAddressMisaligned

/-- The access fault of an access (20_memory.md R112); a table read raises that of a fetch. -/
def accessFaultOf (k : Access) : Exc :=
  if k ∈ [.fetch, .table] then .instructionAccessFault
  else if k ∈ [.load, .lr, .pop] then .loadAccessFault
  else .storeAmoAccessFault

/-- The page fault of an access (20_memory.md R112). -/
def pageFaultOf (k : Access) : Exc :=
  if k ∈ [.fetch, .table] then .instructionPageFault
  else if k ∈ [.load, .lr, .pop] then .loadPageFault
  else .storeAmoPageFault

/-- What a region must have for an access (20_memory.md R105; for a push or pop also 48_zc.md R691 (d)). An `sc` needs W and
R: the model's choice (log 28). -/
def Allows (k : Access) (r : Region) : Prop :=
  (k ∈ [.fetch, .table] → r.x = true) ∧ (k ∈ [.load, .lr, .sc, .amo, .pop] → r.r = true) ∧
    (k ∈ [.store, .sc, .amo, .push] → r.w = true) ∧ (k = .amo → r.atomics ≠ .none) ∧
    (k ∈ [.lr, .sc] → r.atomics = .amoLrsc) ∧ (k ∈ [.pop, .push] → r.kind = .main)

/-- No region that holds the `n` bytes at a physical address allows the access. -/
def State.noRegion (s : State) (k : Access) (pa n : Nat) : Prop :=
  ∀ r ∈ s.cfg.regions, r.base ≤ pa → pa + n ≤ r.base + r.size → ¬ Allows k r

/-- The byte at a physical address is in no region that performs misaligned accesses (20_memory.md R111). -/
def State.noSplit (s : State) (pa : Nat) : Prop :=
  ∀ r ∈ s.cfg.regions, r.base ≤ pa → pa + 1 ≤ r.base + r.size → r.kind = .io ∨ r.misalignedOk = false

/-- The access is not translated (20_memory.md R122). -/
def State.untranslated (s : State) (k : Access) : Prop := s.paged = false ∨ s.accessPriv k = .m

/-- The `n` bytes at `va` are those at `pa`, and each may be accessed by itself (20_memory.md R111). -/
def State.bytesAt (s : State) (k : Access) (va : Word) (n pa : Nat) : Prop :=
  ∀ j < n, s.splitAddr k (s.byteAddr va j) = .ok (pa + j) ∧ inClint s.cfg (pa + j) = false

/-- A load of `n` bytes of main memory at `va` into `x[rd]` completes: wherever the address is aligned and translation
and the region check give `pa`, the register holds the bytes there, as a signed or an unsigned number. -/
def LoadsMain (i : Instr) (s : State) (m : MemOp) : Prop :=
  ∀ pa, s.alignedAddr .load m.va m.bytes = .ok pa → s.inMain pa m.bytes →
    Computes i s m.len m.reg
      (s.cfg.word (if m.signed then leInt s.mem pa m.bytes else leNat s.mem pa m.bytes))

/-- A store of the low bytes of `v` to main memory completes, wherever the address is aligned and translation and the
region check give `pa`. -/
def StoresMain (i : Instr) (s : State) (m : MemOp) (v : Word) : Prop :=
  ∀ pa, s.alignedAddr .store m.va m.bytes = .ok pa → s.inMain pa m.bytes → Stores i s m.len pa m.bytes v

/-- `t` is `s` after a load of `v` into `f[rd]`: the register holds it boxed, `mstatus.FS` is 3, and no other register,
flag or byte of memory changes (44_fd.md R404). -/
def LoadedF (s t : State) (len : Nat) (f : Fmt) (rd : Reg) (v : Word) : Prop :=
  t.pc = s.nextPc len ∧ t.csr.minstret = s.retired ∧
    (∀ k, t.rf k = if k = rd then s.cfg.fnorm (box f v) else s.rf k) ∧ (∀ a, memGet t.mem a = memGet s.mem a) ∧
    t =
      { s with
        f := t.f, pc := t.pc
        csr := { s.csr with minstret := t.csr.minstret, mstatus := { s.csr.mstatus with fs := 3 } } }

/-- A load of main memory into `f[rd]` completes. -/
def LoadsMainF (i : Instr) (s : State) (f : Fmt) (m : MemOp) : Prop :=
  ∀ pa, s.alignedAddr .load m.va m.bytes = .ok pa → s.inMain pa m.bytes →
    ∃ t, exec i s = .next t ∧ LoadedF s t m.len f m.reg (BitVec.ofNat 64 (leNat s.mem pa m.bytes))

/-- `c 0`, ..., `c d` are the states between the first `d` byte stores of a misaligned store of `n` bytes of `v` at `va` that
is performed bytewise (20_memory.md R111), in some order of the bytes: each is translated and checked in the state before
it, and changes that byte of memory and nothing else. -/
def SplitStoresTo (s : State) (k : Access) (va : Word) (n : Nat) (v : Word) (order : List Nat) (c : Nat → State) (d : Nat) :
    Prop :=
  c 0 = s ∧ order.Perm (List.range n) ∧ d ≤ n ∧ ∀ j < d, ∃ l pa, order[j]? = some l ∧
    (c j).splitAddr k (s.byteAddr va l) = .ok pa ∧ c (j + 1) = { c j with mem := (c (j + 1)).mem } ∧
    StoredBytes (c j) (c (j + 1)) pa 1 (v >>> (8 * l))

/-- The next byte store of the chain fails with an exception, and the trap value is the address of its byte. -/
def SplitStoreFails (s : State) (k : Access) (va : Word) (order : List Nat) (c : Nat → State) (d : Nat) (e : Exc)
    (tval : Word) : Prop :=
  ∃ l, order[d]? = some l ∧ tval = s.byteAddr va l ∧ (c d).splitAddr k tval = .error e ∧
    (e = accessFaultOf k ∨ e = pageFaultOf k)

/-- `v` is what a read of `n` bytes at `pa`, outside main memory, gives: the register of the CLINT they are, or bytes the
device chooses (20_memory.md R114; log 12). -/
def State.DeviceValue (s : State) (k : Access) (va : Word) (pa n : Nat) (v : Word) : Prop :=
  if inClint s.cfg pa then ∃ r, clintReg s.cfg (pa - s.cfg.clintBase) n = some r ∧ v = s.clint.get r
  else
    v.toNat < 2 ^ (8 * n) ∧
      ∀ j < n, v.extractLsb' (8 * j) 8 =
        Config.deviceByte { draw := s.draws, kind := k, va := va, level := none, pa := pa + j }

/-- `c` is the CLINT after a store of `v` to `n` bytes at `pa`, outside main memory: the register they are holds it; a store
to any other device changes no state: the model's choice (log 12). -/
def State.DeviceStored (s : State) (c : Clint) (pa n : Nat) (v : Word) : Prop :=
  if inClint s.cfg pa then ∃ r, clintReg s.cfg (pa - s.cfg.clintBase) n = some r ∧ c = s.clint.put v r else c = s.clint

/-- A fetch of the parcel at `va` gives `w` (20_memory.md R107, R114): the two bytes there of main memory, little-endian, or
what the device answers. -/
def State.Parcel (s : State) (va : Word) (w : BitVec 16) : Prop :=
  ∃ pa, s.alignedAddr .fetch va 2 = .ok pa ∧
    (s.inMain pa 2 → w = memGet s.mem (pa + 1) ++ memGet s.mem pa) ∧
    (¬ s.inMain pa 2 → s.DeviceValue .fetch va pa 2 (w.setWidth 64))

/-- The address of access `j` of a push or a pop whose first access is at `top` (48_zc.md R691). -/
def State.slot (s : State) (top : Int) (j : Nat) : Word := s.cfg.word (top - j * s.cfg.xlen.bytes)

/-- The address of the first store of a push (48_zc.md R692). -/
def State.pushTop (s : State) : Int := (s.xu State.sp : Int) - s.cfg.xlen.bytes

/-- The address of the first load of a pop (48_zc.md R693). -/
def State.popTop (s : State) (rlist : BitVec 4) (spimm : BitVec 2) : Int :=
  (s.xu State.sp : Int) + (stackAdj s.cfg rlist spimm).toNat - s.cfg.xlen.bytes

/-- `c 0`, ..., `c n` are the states between the first `n` stores of a push from `s` (48_zc.md R691 (a)): each is a store of
its own, of the next register of the list at the next slot. -/
def PushesTo (s : State) (rlist : BitVec 4) (c : Nat → State) (n : Nat) : Prop :=
  c 0 = s ∧ ∀ j < n, ∃ r, (listRegs rlist)[j]? = some r ∧
    (c j).write .push (s.slot s.pushTop j) s.cfg.xlen.bytes (s.rx r) = .ok (c (j + 1))

/-- The same for the loads of a pop: the register gets the value read. -/
def PopsTo (s : State) (rlist : BitVec 4) (spimm : BitVec 2) (c : Nat → State) (n : Nat) : Prop :=
  c 0 = s ∧ ∀ j < n, ∃ r v, (listRegs rlist)[j]? = some r ∧
    (c j).read .pop (s.slot (s.popTop rlist spimm) j) s.cfg.xlen.bytes = .ok v ∧ c (j + 1) = (c j).wx r v

/-! ### Translation (20_memory.md R122 to R127) -/

/-- The bits of a physical page number in `satp` and in a table entry (10_state.md R69, 20_memory.md R123, R124). -/
def ppnWidth : Xlen → Nat
  | .rv32 => 22
  | .rv64 => 44

/-- The physical page number in a table entry. -/
def entryPpn (x : Xlen) (pte : Word) : Nat := pte.toNat / 2 ^ 10 % 2 ^ ppnWidth x

/-- The physical address of the entry the walk reads at a level, in the table at page `table` (20_memory.md R125 (2)). -/
def State.entryAddr (s : State) (va : Word) (level table : Nat) : Nat :=
  table * 4096 + va.toNat / 2 ^ (12 + vpnBits s.cfg.xlen * level) % 2 ^ vpnBits s.cfg.xlen * s.cfg.xlen.bytes

/-- The entry there, read as 20_memory.md R116 says. -/
def State.entry (s : State) (k : Access) (va : Word) (level table : Nat) : Word :=
  s.physRead k va (some level) (s.entryAddr va level table) s.cfg.xlen.bytes

/-- The entry may be read. -/
def State.entryReadable (s : State) (va : Word) (level table : Nat) : Prop :=
  regionOk s.cfg .load (s.entryAddr va level table) s.cfg.xlen.bytes = true

/-- The entry is valid (20_memory.md R125 (3)): V is set, W is not set without R, and no reserved bit is set. -/
def ValidEntry (x : Xlen) (pte : Word) : Prop :=
  pte.getLsbD 0 = true ∧ (pte.getLsbD 2 = true → pte.getLsbD 1 = true) ∧
    (x = .rv64 → ∀ j, 54 ≤ j → pte.getLsbD j = false)

/-- The entry is a leaf (20_memory.md R125 (4)). -/
def LeafEntry (pte : Word) : Prop := pte.getLsbD 1 = true ∨ pte.getLsbD 3 = true

/-- The walk for an access reaches the table at page `table`, to read its entry for `level` (20_memory.md R125): it begins
at `satp.PPN`, and a valid entry that is no leaf and has D, A and U clear names the next table. -/
inductive State.Reaches (s : State) (k : Access) (va : Word) : (level table : Nat) → Prop
  | root : s.Reaches k va (walkLevels s.cfg.xlen - 1) (s.csr.satp.toNat % 2 ^ ppnWidth s.cfg.xlen)
  | next {level table : Nat} (above : s.Reaches k va (level + 1) table) (readable : s.entryReadable va (level + 1) table)
      (valid : ValidEntry s.cfg.xlen (s.entry k va (level + 1) table)) (pointer : ¬ LeafEntry (s.entry k va (level + 1) table))
      (clear : ∀ j ∈ [4, 6, 7], (s.entry k va (level + 1) table).getLsbD j = false) :
      s.Reaches k va level (entryPpn s.cfg.xlen (s.entry k va (level + 1) table))

/-- The privilege an access is made in (20_memory.md R103). -/
def State.privilegeOf (s : State) (k : Access) : Priv :=
  if k ∈ [.fetch, .table] ∨ s.priv ≠ .m ∨ s.csr.mstatus.mprv = false then s.priv else s.csr.mstatus.mpp

/-- `satp.MODE` is Sv32 or Sv39 (10_state.md R69). -/
def State.pagingOn (s : State) : Prop :=
  match s.cfg.xlen with
  | .rv32 => s.csr.satp.toNat / 2 ^ 31 % 2 = 1
  | .rv64 => s.csr.satp.toNat / 2 ^ 60 = 8

/-- The virtual address has a form its mode translates (20_memory.md R124). -/
def State.canonical (s : State) (va : Word) : Prop :=
  s.cfg.xlen = .rv64 → ∀ j, 38 ≤ j → j < 64 → va.getLsbD j = va.getLsbD 38

/-- The leaf at a level permits the access, is aligned to its page size, and has A, and for a store D, set (20_memory.md
R125 (5) to (7), R126, R127). -/
def State.LeafPermits (s : State) (k : Access) (level : Nat) (pte : Word) : Prop :=
  (k ∈ [.fetch, .table] → pte.getLsbD 3 = true) ∧
    (k ∈ [.load, .lr, .pop] → pte.getLsbD 1 = true ∨ pte.getLsbD 3 = true ∧ s.csr.mstatus.mxr = true) ∧
    (k ∈ [.store, .sc, .amo, .push] → pte.getLsbD 2 = true ∧ pte.getLsbD 7 = true) ∧
    (s.privilegeOf k = .u → pte.getLsbD 4 = true) ∧
    (s.privilegeOf k = .s → pte.getLsbD 4 = true → k ∉ [.fetch, .table] ∧ s.csr.mstatus.sum = true) ∧
    entryPpn s.cfg.xlen pte % 2 ^ (vpnBits s.cfg.xlen * level) = 0 ∧ pte.getLsbD 6 = true

/-- The physical address a leaf at a level gives (20_memory.md R125 (8)). -/
def State.leafAddr (s : State) (va : Word) (level : Nat) (pte : Word) : Nat :=
  entryPpn s.cfg.xlen pte * 4096 + va.toNat % (4096 * 2 ^ (vpnBits s.cfg.xlen * level))

/-! ### Control and status registers -/

/-- The rows of the table of 10_state.md R53 that exist in a configuration with EXT_ZICSR: the address and the register. -/
def csrTable (c : Config) : List (Nat × Csr) :=
  let rows := fun (exist : Bool) (l : List (Nat × Csr)) => if exist then l else []
  let numberedRows := fun (base : Nat) (r : Nat → Csr) => (List.range 29).map fun i => (base + 3 + i, r (i + 3))
  let rv32 : Bool := c.xlen = .rv32
  rows c.extF [(0x001, .fflags), (0x002, .frm), (0x003, .fcsr)] ++
    rows c.extZcmt [(0x017, .jvt)] ++
    [(0xC00, .cycle), (0xC01, .time), (0xC02, .instret)] ++ numberedRows 0xC00 .hpmcounter ++
    rows rv32 ([(0xC80, .cycleh), (0xC81, .timeh), (0xC82, .instreth)] ++ numberedRows 0xC80 .hpmcounterh) ++
    rows c.extS
      [(0x100, .sstatus), (0x104, .sie), (0x105, .stvec), (0x106, .scounteren), (0x10A, .senvcfg), (0x140, .sscratch),
        (0x141, .sepc), (0x142, .scause), (0x143, .stval), (0x144, .sip), (0x180, .satp), (0x302, .medeleg),
        (0x303, .mideleg)] ++
    [(0xF11, .mvendorid), (0xF12, .marchid), (0xF13, .mimpid), (0xF14, .mhartid), (0xF15, .mconfigptr), (0x300, .mstatus),
      (0x301, .misa), (0x304, .mie), (0x305, .mtvec), (0x320, .mcountinhibit), (0x340, .mscratch), (0x341, .mepc),
      (0x342, .mcause), (0x343, .mtval), (0x344, .mip), (0xB00, .mcycle), (0xB02, .minstret)] ++
    numberedRows 0x320 .mhpmevent ++ numberedRows 0xB00 .mhpmcounter ++
    rows c.extU [(0x306, .mcounteren), (0x30A, .menvcfg)] ++
    rows rv32 ([(0x310, .mstatush), (0xB80, .mcycleh), (0xB82, .minstreth)] ++ numberedRows 0xB80 .mhpmcounterh) ++
    rows (rv32 && c.extU) [(0x31A, .menvcfgh)]

/-! ### Traps -/

/-- The saved `pc` of the mode the trap was taken in is the address of the instruction, which is not counted
(60_exceptions.md R725, R740). -/
def SavesPc (s t : State) : Prop :=
  (if t.priv = .s then t.csr.sepc = s.pc else t.priv = .m ∧ t.csr.mepc = s.pc) ∧ t.csr.minstret = s.csr.minstret

/-! ### CSR instructions -/

/-- `s` with the fields a write of a CSR may change taken from `t` (10_state.md R49, R54 to R73, R80); a register that ignores
writes, or that only shows bits of another, has none. -/
def State.csrFrame (s t : State) : Csr → State
  | .fflags => { s with fflags := t.fflags, csr := { s.csr with mstatus := { s.csr.mstatus with fs := t.csr.mstatus.fs } } }
  | .frm => { s with frm := t.frm, csr := { s.csr with mstatus := { s.csr.mstatus with fs := t.csr.mstatus.fs } } }
  | .fcsr =>
    { s with
      fflags := t.fflags, frm := t.frm, csr := { s.csr with mstatus := { s.csr.mstatus with fs := t.csr.mstatus.fs } } }
  | .jvt => { s with csr := { s.csr with jvt := t.csr.jvt } }
  | .sstatus =>
    let ms := t.csr.mstatus
    { s with
      csr :=
        { s.csr with
          mstatus :=
            { s.csr.mstatus with sie := ms.sie, spie := ms.spie, spp := ms.spp, fs := ms.fs, sum := ms.sum, mxr := ms.mxr } } }
  | .mstatus => { s with csr := { s.csr with mstatus := t.csr.mstatus } }
  | .sie | .mie => { s with csr := { s.csr with mie := t.csr.mie } }
  | .sip => { s with csr := { s.csr with ssip := t.csr.ssip } }
  | .mip => { s with csr := { s.csr with ssip := t.csr.ssip, stip := t.csr.stip, seip := t.csr.seip } }
  | .stvec => { s with csr := { s.csr with stvec := t.csr.stvec } }
  | .mtvec => { s with csr := { s.csr with mtvec := t.csr.mtvec } }
  | .scounteren => { s with csr := { s.csr with scounteren := t.csr.scounteren } }
  | .mcounteren => { s with csr := { s.csr with mcounteren := t.csr.mcounteren } }
  | .mcountinhibit => { s with csr := { s.csr with mcountinhibit := t.csr.mcountinhibit } }
  | .sscratch => { s with csr := { s.csr with sscratch := t.csr.sscratch } }
  | .mscratch => { s with csr := { s.csr with mscratch := t.csr.mscratch } }
  | .sepc => { s with csr := { s.csr with sepc := t.csr.sepc } }
  | .mepc => { s with csr := { s.csr with mepc := t.csr.mepc } }
  | .scause => { s with csr := { s.csr with scause := t.csr.scause } }
  | .mcause => { s with csr := { s.csr with mcause := t.csr.mcause } }
  | .stval => { s with csr := { s.csr with stval := t.csr.stval } }
  | .mtval => { s with csr := { s.csr with mtval := t.csr.mtval } }
  | .satp => { s with csr := { s.csr with satp := t.csr.satp } }
  | .medeleg => { s with csr := { s.csr with medeleg := t.csr.medeleg } }
  | .mideleg => { s with csr := { s.csr with mideleg := t.csr.mideleg } }
  | .mcycle | .mcycleh => { s with csr := { s.csr with mcycle := t.csr.mcycle } }
  | .minstret | .minstreth => { s with csr := { s.csr with minstret := t.csr.minstret } }
  | .cycle | .time | .instret | .hpmcounter _ | .cycleh | .timeh | .instreth | .hpmcounterh _ | .senvcfg | .mvendorid
  | .marchid | .mimpid | .mhartid | .mconfigptr | .misa | .menvcfg | .mstatush | .menvcfgh | .mhpmevent _
  | .mhpmcounter _ | .mhpmcounterh _ => s

/-- The CSR instruction completes: `x[rd]` gets the old value, the register is written if `v` is a value, `pc` moves on
and the instruction is counted, unless it wrote the count itself (40_rv_i.md R250; 10_state.md R52, R80). -/
def AccessesCsr (i : Instr) (s : State) (rd : Reg) (r : Csr) (v : Option Word) : Prop :=
  ∃ t, exec i s = .next t ∧
    (∀ k, t.rx k = if k = rd ∧ k ≠ 0#5 then s.cfg.norm (s.csrGet r) else s.rx k) ∧ t.pc = s.nextPc 4 ∧
    (let w := match v with
       | some v => s.csrPut r v
       | none => s
     t = { w with x := t.x, pc := t.pc, csr := { w.csr with minstret := t.csr.minstret } } ∧
     t.csr.minstret = if v.isSome ∧ r.replacesCount then w.csr.minstret else w.retired)

/-! ### Floating-point results -/

/-- The number a datum stands for; infinities and NaNs stand for none. -/
def FVal.num : FVal → Option ℚ
  | .nan _ => none
  | .inf _ => none
  | .fin sign m e => some ((if sign then -1 else 1) * m * 2 ^ e)

/-- The number a datum of a format stands for. -/
def Fmt.num (f : Fmt) (w : Word) : Option ℚ := (f.val w).num

/-- The place of a datum among the extended reals (44_fd.md R400); a NaN has none. -/
def FVal.order : FVal → Option (WithBot (WithTop ℚ))
  | .nan _ => none
  | .inf true => some ⊥
  | .inf false => some ((⊤ : WithTop ℚ) : WithBot (WithTop ℚ))
  | .fin sign m e => some (((((if sign then -1 else 1) * m * 2 ^ e : ℚ) : WithTop ℚ)) : WithBot (WithTop ℚ))

/-- The place of a datum of a format. -/
def Fmt.order (f : Fmt) (w : Word) : Option (WithBot (WithTop ℚ)) := (f.val w).order

/-- The number `q` is `x` rounded in a mode to a set of numbers (44_fd.md R391): the nearest one, with ties to the even one
or away from zero, or the next one towards zero, down or up. -/
def Nearest (numbers even : ℚ → Prop) (mode : RMode) (x : ℝ) (q : ℚ) : Prop :=
  numbers q ∧
    match mode with
    | .rne => ∀ y, numbers y → |q - x| ≤ |y - x| ∧ (|q - x| = |y - x| → y = q ∨ even q)
    | .rmm => ∀ y, numbers y → |q - x| ≤ |y - x| ∧ (|q - x| = |y - x| → y = q ∨ |(y : ℝ)| < |(q : ℝ)|)
    | .rtz => |(q : ℝ)| ≤ |x| ∧ 0 ≤ q * x ∧ ∀ y, numbers y → 0 ≤ y * x → |(y : ℝ)| ≤ |x| → |y| ≤ |q|
    | .rdn => q ≤ x ∧ ∀ y, numbers y → y ≤ x → y ≤ q
    | .rup => x ≤ q ∧ ∀ y, numbers y → x ≤ y → q ≤ y

/-- The finite numbers of a format. -/
def Fmt.finite (f : Fmt) (y : ℚ) : Prop := ∃ w, f.num w = some y

/-- Those whose datum ends in 0. -/
def Fmt.evenFinite (f : Fmt) (y : ℚ) : Prop := ∃ w, f.num w = some y ∧ w.getLsbD 0 = false

/-- The numbers of a format's precision with an exponent that has no bounds. -/
def Fmt.unbounded (f : Fmt) (y : ℚ) : Prop := ∃ m e : ℤ, y = m * 2 ^ e ∧ |m| < 2 ^ (f.mbits + 1)

/-- Those whose significand of that precision is even. -/
def Fmt.evenUnbounded (f : Fmt) (y : ℚ) : Prop :=
  ∃ m e : ℤ, y = m * 2 ^ e ∧ |m| < 2 ^ (f.mbits + 1) ∧ (m = 0 ∨ 2 ^ f.mbits ≤ |m|) ∧ m % 2 = 0

/-- The largest finite number of a format. -/
def Fmt.greatest (f : Fmt) : ℚ := (2 ^ (f.mbits + 1) - 1) * 2 ^ (f.bias - f.mbits)

/-- A result and its flags are those of the number `x` rounded once to a format (44_fd.md R392). Let `y` be `x` rounded with
an unbounded exponent. If `y` exceeds the largest finite number in size the result overflows: an infinity or that largest
number by the mode and the sign, with OF and NX. Else it is `x` rounded among the finite numbers; NX says that it is not
exact, and UF that it is not exact and `y` lies strictly between -2^emin and 2^emin. It has the sign of `x` if `x` is not
zero, and no bit above the format. -/
def RoundsTo (f : Fmt) (mode : RMode) (x : ℝ) (r : Word × Flags) : Prop :=
  r.1.toNat < 2 ^ f.width ∧ ∃ y, Nearest f.unbounded f.evenUnbounded mode x y ∧
    if f.greatest < |y| then
      r.2 = flagOF ||| flagNX ∧
        if mode = .rne ∨ mode = .rmm ∨ mode = .rdn ∧ x < 0 ∨ mode = .rup ∧ 0 < x then r.1 = f.inf (decide (x < 0))
        else f.num r.1 = some (if x < 0 then -f.greatest else f.greatest)
    else
      ∃ q, f.num r.1 = some q ∧ Nearest f.finite f.evenFinite mode x q ∧ (x ≠ 0 → f.sign r.1 = decide (x < 0)) ∧
        r.2 = if (q : ℝ) = x then 0 else if |y| < 2 ^ f.emin then flagUF ||| flagNX else flagNX

/-- `i` is the number `x` rounded to an integer in a mode (44_fd.md R391, R399). -/
def NearestInt (mode : RMode) (x : ℚ) (i : Int) : Prop :=
  match mode with
  | .rne => |(i : ℚ) - x| ≤ 1 / 2 ∧ (|(i : ℚ) - x| = 1 / 2 → i % 2 = 0)
  | .rmm => |(i : ℚ) - x| ≤ 1 / 2 ∧ (|(i : ℚ) - x| = 1 / 2 → |x| < |(i : ℚ)|)
  | .rtz => |(i : ℚ)| ≤ |x| ∧ |x| < |(i : ℚ)| + 1 ∧ 0 ≤ i * x
  | .rdn => (i : ℚ) ≤ x ∧ x < i + 1
  | .rup => x ≤ i ∧ (i : ℚ) - 1 < x

/-! ### Floating-point instructions -/

/-- The floating-point instructions with an `rm` field, and the field (44_fd.md R391, 47_zfh.md). The two quad conversions are
left out: they are illegal whatever the state. -/
def rmOf : Instr → Option (BitVec 3)
  | .fmadd_s _ _ _ _ rm => some rm
  | .fmsub_s _ _ _ _ rm => some rm
  | .fnmsub_s _ _ _ _ rm => some rm
  | .fnmadd_s _ _ _ _ rm => some rm
  | .fadd_s _ _ _ rm => some rm
  | .fsub_s _ _ _ rm => some rm
  | .fmul_s _ _ _ rm => some rm
  | .fdiv_s _ _ _ rm => some rm
  | .fsqrt_s _ _ rm => some rm
  | .fcvt_w_s _ _ rm => some rm
  | .fcvt_wu_s _ _ rm => some rm
  | .fcvt_l_s _ _ rm => some rm
  | .fcvt_lu_s _ _ rm => some rm
  | .fcvt_s_w _ _ rm => some rm
  | .fcvt_s_wu _ _ rm => some rm
  | .fcvt_s_l _ _ rm => some rm
  | .fcvt_s_lu _ _ rm => some rm
  | .fmadd_d _ _ _ _ rm => some rm
  | .fmsub_d _ _ _ _ rm => some rm
  | .fnmsub_d _ _ _ _ rm => some rm
  | .fnmadd_d _ _ _ _ rm => some rm
  | .fadd_d _ _ _ rm => some rm
  | .fsub_d _ _ _ rm => some rm
  | .fmul_d _ _ _ rm => some rm
  | .fdiv_d _ _ _ rm => some rm
  | .fsqrt_d _ _ rm => some rm
  | .fcvt_w_d _ _ rm => some rm
  | .fcvt_wu_d _ _ rm => some rm
  | .fcvt_l_d _ _ rm => some rm
  | .fcvt_lu_d _ _ rm => some rm
  | .fcvt_d_w _ _ rm => some rm
  | .fcvt_d_wu _ _ rm => some rm
  | .fcvt_d_l _ _ rm => some rm
  | .fcvt_d_lu _ _ rm => some rm
  | .fcvt_s_d _ _ rm => some rm
  | .fcvt_d_s _ _ rm => some rm
  | .fmadd_h _ _ _ _ rm => some rm
  | .fmsub_h _ _ _ _ rm => some rm
  | .fnmsub_h _ _ _ _ rm => some rm
  | .fnmadd_h _ _ _ _ rm => some rm
  | .fadd_h _ _ _ rm => some rm
  | .fsub_h _ _ _ rm => some rm
  | .fmul_h _ _ _ rm => some rm
  | .fdiv_h _ _ _ rm => some rm
  | .fsqrt_h _ _ rm => some rm
  | .fcvt_w_h _ _ rm => some rm
  | .fcvt_wu_h _ _ rm => some rm
  | .fcvt_l_h _ _ rm => some rm
  | .fcvt_lu_h _ _ rm => some rm
  | .fcvt_h_w _ _ rm => some rm
  | .fcvt_h_wu _ _ rm => some rm
  | .fcvt_h_l _ _ rm => some rm
  | .fcvt_h_lu _ _ rm => some rm
  | .fcvt_s_h _ _ rm => some rm
  | .fcvt_h_s _ _ rm => some rm
  | .fcvt_d_h _ _ rm => some rm
  | .fcvt_h_d _ _ rm => some rm
  | _ => none

/-- The floating-point instructions without an `rm` field: sign injection, minimum and maximum, comparisons, classification,
moves, loads and stores, the compressed ones too (44_fd.md R391, R395). -/
def isFloatWithoutMode : Instr → Bool
  | .fsgnj_s _ _ _ | .fsgnjn_s _ _ _ | .fsgnjx_s _ _ _ | .fmin_s _ _ _ | .fmax_s _ _ _ | .feq_s _ _ _ | .flt_s _ _ _
  | .fle_s _ _ _ | .fclass_s _ _ | .fmv_x_w _ _ | .fmv_w_x _ _ | .fsgnj_d _ _ _ | .fsgnjn_d _ _ _ | .fsgnjx_d _ _ _
  | .fmin_d _ _ _ | .fmax_d _ _ _ | .feq_d _ _ _ | .flt_d _ _ _ | .fle_d _ _ _ | .fclass_d _ _ | .fmv_x_d _ _
  | .fmv_d_x _ _ | .flw _ _ _ | .fsw _ _ _ | .fld _ _ _ | .fsd _ _ _ | .fsgnj_h _ _ _ | .fsgnjn_h _ _ _
  | .fsgnjx_h _ _ _ | .fmin_h _ _ _ | .fmax_h _ _ _ | .feq_h _ _ _ | .flt_h _ _ _ | .fle_h _ _ _ | .fclass_h _ _
  | .fmv_x_h _ _ | .fmv_h_x _ _ | .flh _ _ _ | .fsh _ _ _ | .c_fld _ _ _ | .c_flw _ _ _ | .c_fsd _ _ _ | .c_fsw _ _ _
  | .c_fldsp _ _ | .c_flwsp _ _ | .c_fsdsp _ _ | .c_fswsp _ _ => true
  | _ => false

/-! ### The assumption of fairness (20_memory.md R143, 43_a.md R355)

Whether an `sc` under a covering reservation succeeds is the free draw `Config.scFails` (log 8). The spec asks that the
draw be eventually true in a constrained loop, or that the assumption be stated. `FairRun` is that assumption. No
statement rests on it; a claim that a program leaves such a loop takes it as a premise. -/

/-- A run of the machine: each state is followed by the next state of its step. -/
def IsRun (r : Nat → State) : Prop := ∀ k, step (r k) = .next (r (k + 1))

/-- The step from the state runs the instruction: the hart is awake, no interrupt is taken, and the fetch gives it. -/
def State.runs (s : State) (i : Instr) : Prop :=
  (s.waiting = false ∨ s.sample.wakes = true) ∧
    let u := { s.sample with waiting := false }
    u.interrupt = none ∧ ∃ code, u.fetch = .ok code ∧ decode s.cfg code = .ok i

/-- The displacement of a conditional branch of the base ISA. -/
def branchOffset : Instr → Option Int
  | .beq _ _ off | .bne _ _ off | .blt _ _ off | .bge _ _ off | .bltu _ _ off | .bgeu _ _ off => some (off.toInt * 2)
  | _ => none

/-- The integer instructions of the base ISA without loads, stores, backward jumps and branches, `fence`, `fence.i` and
system instructions (20_memory.md R143). Where `jalr` goes only a run shows. -/
def isPlain (i : Instr) : Prop :=
  match i with
  | .lui _ _ | .auipc _ _ | .addi _ _ _ | .slti _ _ _ | .sltiu _ _ _ | .xori _ _ _ | .ori _ _ _ | .andi _ _ _
  | .slli _ _ _ | .srli _ _ _ | .srai _ _ _ | .add _ _ _ | .sub _ _ _ | .sll _ _ _ | .slt _ _ _ | .sltu _ _ _
  | .xor _ _ _ | .srl _ _ _ | .sra _ _ _ | .or _ _ _ | .and _ _ _ | .addiw _ _ _ | .slliw _ _ _ | .srliw _ _ _
  | .sraiw _ _ _ | .addw _ _ _ | .subw _ _ _ | .sllw _ _ _ | .srlw _ _ _ | .sraw _ _ _ | .jalr _ _ _ => True
  | .jal _ off => 0 < off.toInt
  | i => ∃ off, branchOffset i = some off ∧ 0 < off

/-- A loop as it stands in memory: the `lr`, the instructions between it and the `sc`, the `sc`, and the retry branch. -/
structure ScLoop where
  start : Word
  lr : Instr
  body : List Instr
  sc : Instr
  retry : Instr

/-- The instructions of the loop, each 4 bytes after the one before it. -/
def ScLoop.code (l : ScLoop) : List Instr := l.lr :: l.body ++ [l.sc, l.retry]

/-- The address of an instruction of the loop. -/
def ScLoop.addr (l : ScLoop) (c : Config) (j : Nat) : Word := c.word (l.start.toNat + 4 * j)

/-- The loop is constrained as 20_memory.md R143 says: at most 16 plain instructions between the `lr` and the `sc`, which are
of one width, and a retry branch that goes back to the `lr`. -/
def ScLoop.Constrained (l : ScLoop) (c : Config) (n : Nat) : Prop :=
  l.body.length ≤ 16 ∧ (∀ i ∈ l.body, isPlain i) ∧ (∃ rd rs1, lrOf l.lr = some (rd, rs1, n)) ∧
    (∃ rd rs1 rs2, scOf l.sc = some (rd, rs1, rs2, n)) ∧
    ∃ off, branchOffset l.retry = some off ∧ c.word ((l.addr c (l.body.length + 2)).toNat + off) = l.start

/-- The hart stands at an instruction of the loop, which stands in memory there, and runs it. -/
def ScLoop.RunsAt (l : ScLoop) (s : State) (j : Nat) : Prop :=
  s.pc = l.addr s.cfg j ∧ ∃ i, l.code[j]? = some i ∧ s.runs i

/-- From step `j` to step `k` the run goes once through a constrained loop, from its `lr` forward to its `sc`, which has the
address of the `lr`, in main memory that supports the pair, and a reservation that covers its bytes. -/
def ScLoop.Attempt (l : ScLoop) (r : Nat → State) (j k : Nat) : Prop :=
  j < k ∧ l.RunsAt (r j) 0 ∧ l.RunsAt (r k) (l.body.length + 1) ∧
    (∀ m, j ≤ m → m < k → (∃ p, l.RunsAt (r m) p) ∧ (r m).pc.toNat < (r (m + 1)).pc.toNat) ∧
    ∃ n rd rd' rs1 rs1' rs2 pa reg, l.Constrained (r j).cfg n ∧ lrOf l.lr = some (rd, rs1, n) ∧
      scOf l.sc = some (rd', rs1', rs2, n) ∧ (r k).rx rs1' = (r j).rx rs1 ∧
      (r k).alignedAddr .sc ((r k).rx rs1') n = .ok pa ∧ findRegion (r k).cfg pa n = some reg ∧ reg.kind = .main ∧
      (r k).reserved ((r k).rx rs1') n = true

/-- The draws of a run are fair: a constrained loop that is gone through again and again meets, again and again, a draw that
lets its `sc` succeed. -/
def FairRun (r : Nat → State) : Prop :=
  IsRun r → ∀ l : ScLoop, (∀ n, ∃ j k, n ≤ j ∧ l.Attempt r j k) →
    ∀ n, ∃ j k, n ≤ j ∧ l.Attempt r j k ∧ Config.scFails (r k).draws = false

end Machine

end Sys2Proof
end

