-- ==== Sys2Proof/Certificates/Slice0/Obligations.lean ====
section
/-! DEFINITION. The statements for the provers. Each is about the machine of this model, cites the rules of spec/ it
formalises, and leaves the proof to others. The vocabulary is that of Sys2Proof/Safety.lean. -/

open Sys2Proof Sys2Proof.Machine

/-! ### Integer computation -/

/-- The register-immediate instructions of the base (40_rv_i.md R221 to R231) complete, write the value the rule gives
modulo 2^XLEN, and write nothing else. -/
def Obligations.ImmediateInstructionsCompute : Prop :=
  ∀ (s : State) (rd rs1 : Reg) (imm : BitVec 12) (up : BitVec 20) (shamt : BitVec 6),
    Computes (.lui rd up) s 4 rd (s.cfg.word (up.toInt * 4096)) ∧
    Computes (.auipc rd up) s 4 rd (s.cfg.word (s.pc.toNat + up.toInt * 4096)) ∧
    Computes (.addi rd rs1 imm) s 4 rd (s.cfg.word (s.xs rs1 + imm.toInt)) ∧
    Computes (.slti rd rs1 imm) s 4 rd (if s.xs rs1 < imm.toInt then 1 else 0) ∧
    Computes (.sltiu rd rs1 imm) s 4 rd (if (s.xu rs1 : Int) < imm.toInt % 2 ^ s.xlen then 1 else 0) ∧
    ComputesBits (.xori rd rs1 imm) s 4 rd (fun k => s.xbit rs1 k ^^ imm.getLsbD (min k 11)) ∧
    ComputesBits (.ori rd rs1 imm) s 4 rd (fun k => s.xbit rs1 k || imm.getLsbD (min k 11)) ∧
    ComputesBits (.andi rd rs1 imm) s 4 rd (fun k => s.xbit rs1 k && imm.getLsbD (min k 11)) ∧
    Computes (.slli rd rs1 shamt) s 4 rd (s.cfg.word (s.xu rs1 * 2 ^ shamt.toNat)) ∧
    Computes (.srli rd rs1 shamt) s 4 rd (s.cfg.word (s.xu rs1 / 2 ^ shamt.toNat)) ∧
    Computes (.srai rd rs1 shamt) s 4 rd (s.cfg.word (s.xs rs1 / 2 ^ shamt.toNat))

/-- The register-register instructions of the base (40_rv_i.md R232 to R241) complete, write the value the rule gives
modulo 2^XLEN, and write nothing else. A shift takes its amount modulo XLEN (R234). -/
def Obligations.RegisterInstructionsCompute : Prop :=
  ∀ (s : State) (rd rs1 rs2 : Reg),
    Computes (.add rd rs1 rs2) s 4 rd (s.cfg.word (s.xs rs1 + s.xs rs2)) ∧
    Computes (.sub rd rs1 rs2) s 4 rd (s.cfg.word (s.xs rs1 - s.xs rs2)) ∧
    Computes (.sll rd rs1 rs2) s 4 rd (s.cfg.word (s.xu rs1 * 2 ^ (s.xu rs2 % s.xlen))) ∧
    Computes (.slt rd rs1 rs2) s 4 rd (if s.xs rs1 < s.xs rs2 then 1 else 0) ∧
    Computes (.sltu rd rs1 rs2) s 4 rd (if s.xu rs1 < s.xu rs2 then 1 else 0) ∧
    ComputesBits (.xor rd rs1 rs2) s 4 rd (fun k => s.xbit rs1 k ^^ s.xbit rs2 k) ∧
    Computes (.srl rd rs1 rs2) s 4 rd (s.cfg.word (s.xu rs1 / 2 ^ (s.xu rs2 % s.xlen))) ∧
    Computes (.sra rd rs1 rs2) s 4 rd (s.cfg.word (s.xs rs1 / 2 ^ (s.xu rs2 % s.xlen))) ∧
    ComputesBits (.or rd rs1 rs2) s 4 rd (fun k => s.xbit rs1 k || s.xbit rs2 k) ∧
    ComputesBits (.and rd rs1 rs2) s 4 rd (fun k => s.xbit rs1 k && s.xbit rs2 k)

/-- The W instructions (41_rv64i.md R300 to R308), which exist on XLEN = 64, complete and write a 32-bit result
sign-extended, whatever the upper halves of the sources hold. -/
def Obligations.WordInstructionsCompute : Prop :=
  ∀ (s : State) (rd rs1 rs2 : Reg) (imm : BitVec 12) (shamt : BitVec 5), s.cfg.xlen = .rv64 →
    Computes (.addiw rd rs1 imm) s 4 rd (word32 (s.xu rs1 + imm.toInt)) ∧
    Computes (.slliw rd rs1 shamt) s 4 rd (word32 (s.xu rs1 * 2 ^ shamt.toNat)) ∧
    Computes (.srliw rd rs1 shamt) s 4 rd (word32 (s.xu rs1 % 2 ^ 32 / 2 ^ shamt.toNat)) ∧
    Computes (.sraiw rd rs1 shamt) s 4 rd (word32 ((s.xu rs1 : Int).bmod (2 ^ 32) / 2 ^ shamt.toNat)) ∧
    Computes (.addw rd rs1 rs2) s 4 rd (word32 (s.xu rs1 + s.xu rs2)) ∧
    Computes (.subw rd rs1 rs2) s 4 rd (word32 (s.xu rs1 - s.xu rs2)) ∧
    Computes (.sllw rd rs1 rs2) s 4 rd (word32 (s.xu rs1 * 2 ^ (s.xu rs2 % 32))) ∧
    Computes (.srlw rd rs1 rs2) s 4 rd (word32 (s.xu rs1 % 2 ^ 32 / 2 ^ (s.xu rs2 % 32))) ∧
    Computes (.sraw rd rs1 rs2) s 4 rd (word32 ((s.xu rs1 : Int).bmod (2 ^ 32) / 2 ^ (s.xu rs2 % 32)))

/-- The multiplications (42_m.md R322 to R325, R330) complete and write the low or the high half of the exact product.
The divisions (R326 to R329, R331 to R334) complete and write the quotient or the remainder with the corner cases of
R321: no division traps, sets a flag or writes anything else. -/
def Obligations.MultiplicationsAndDivisionsCompute : Prop :=
  (∀ (s : State) (rd rs1 rs2 : Reg),
     Computes (.mul rd rs1 rs2) s 4 rd (s.cfg.word (s.xs rs1 * s.xs rs2)) ∧
     Computes (.mulh rd rs1 rs2) s 4 rd (s.cfg.word (s.xs rs1 * s.xs rs2 / 2 ^ s.xlen)) ∧
     Computes (.mulhsu rd rs1 rs2) s 4 rd (s.cfg.word (s.xs rs1 * s.xu rs2 / 2 ^ s.xlen)) ∧
     Computes (.mulhu rd rs1 rs2) s 4 rd (s.cfg.word (s.xu rs1 * s.xu rs2 / 2 ^ s.xlen)) ∧
     (s.cfg.xlen = .rv64 → Computes (.mulw rd rs1 rs2) s 4 rd (word32 (s.xu rs1 * s.xu rs2)))) ∧
  (∀ (s : State) (rd rs1 rs2 : Reg),
     Computes (.div rd rs1 rs2) s 4 rd (s.cfg.word (quotientS s.xlen (s.xs rs1) (s.xs rs2))) ∧
     Computes (.divu rd rs1 rs2) s 4 rd
       (s.cfg.word (if s.xu rs2 = 0 then 2 ^ s.xlen - 1 else s.xu rs1 / s.xu rs2)) ∧
     Computes (.rem rd rs1 rs2) s 4 rd (s.cfg.word (remainderS s.xlen (s.xs rs1) (s.xs rs2))) ∧
     Computes (.remu rd rs1 rs2) s 4 rd (s.cfg.word (if s.xu rs2 = 0 then s.xu rs1 else s.xu rs1 % s.xu rs2)) ∧
     (s.cfg.xlen = .rv64 →
       Computes (.divw rd rs1 rs2) s 4 rd
         (word32 (quotientS 32 ((s.xu rs1 : Int).bmod (2 ^ 32)) ((s.xu rs2 : Int).bmod (2 ^ 32)))) ∧
       Computes (.divuw rd rs1 rs2) s 4 rd
         (word32 (if s.xu rs2 % 2 ^ 32 = 0 then 2 ^ 32 - 1 else s.xu rs1 % 2 ^ 32 / (s.xu rs2 % 2 ^ 32))) ∧
       Computes (.remw rd rs1 rs2) s 4 rd
         (word32 (remainderS 32 ((s.xu rs1 : Int).bmod (2 ^ 32)) ((s.xu rs2 : Int).bmod (2 ^ 32)))) ∧
       Computes (.remuw rd rs1 rs2) s 4 rd
         (word32 (if s.xu rs2 % 2 ^ 32 = 0 then s.xu rs1 % 2 ^ 32 else s.xu rs1 % 2 ^ 32 % (s.xu rs2 % 2 ^ 32)))))

/-- Zba (46_b.md R553 to R560): a shifted, possibly zero-extended index is added to a base, modulo 2^XLEN. Zicond
(49_zicond.md R711, R712): zero or the first source, by whether the second is zero. -/
def Obligations.AddressGenerationAndConditionalZerosCompute : Prop :=
  (∀ (s : State) (rd rs1 rs2 : Reg) (shamt : BitVec 6),
     Computes (.sh1add rd rs1 rs2) s 4 rd (s.cfg.word (s.xu rs2 + s.xu rs1 * 2)) ∧
     Computes (.sh2add rd rs1 rs2) s 4 rd (s.cfg.word (s.xu rs2 + s.xu rs1 * 4)) ∧
     Computes (.sh3add rd rs1 rs2) s 4 rd (s.cfg.word (s.xu rs2 + s.xu rs1 * 8)) ∧
     (s.cfg.xlen = .rv64 →
       Computes (.add_uw rd rs1 rs2) s 4 rd (s.cfg.word (s.xu rs2 + s.xu rs1 % 2 ^ 32)) ∧
       Computes (.sh1add_uw rd rs1 rs2) s 4 rd (s.cfg.word (s.xu rs2 + s.xu rs1 % 2 ^ 32 * 2)) ∧
       Computes (.sh2add_uw rd rs1 rs2) s 4 rd (s.cfg.word (s.xu rs2 + s.xu rs1 % 2 ^ 32 * 4)) ∧
       Computes (.sh3add_uw rd rs1 rs2) s 4 rd (s.cfg.word (s.xu rs2 + s.xu rs1 % 2 ^ 32 * 8)) ∧
       Computes (.slli_uw rd rs1 shamt) s 4 rd (s.cfg.word (s.xu rs1 % 2 ^ 32 * 2 ^ shamt.toNat)))) ∧
  (∀ (s : State) (rd rs1 rs2 : Reg), s.cfg.norm (s.rx rs2) = s.rx rs2 →
     Computes (.czero_eqz rd rs1 rs2) s 4 rd (if s.xu rs2 = 0 then 0 else s.cfg.word (s.xu rs1)) ∧
     Computes (.czero_nez rd rs1 rs2) s 4 rd (if s.xu rs2 = 0 then s.cfg.word (s.xu rs1) else 0))

/-- Zbb, logic, comparison and extension (46_b.md R561 to R563, R570 to R576). -/
def Obligations.LogicMinMaxAndExtensionCompute : Prop :=
  ∀ (s : State) (rd rs1 rs2 : Reg),
    ComputesBits (.andn rd rs1 rs2) s 4 rd (fun k => s.xbit rs1 k && !s.xbit rs2 k) ∧
    ComputesBits (.orn rd rs1 rs2) s 4 rd (fun k => s.xbit rs1 k || !s.xbit rs2 k) ∧
    ComputesBits (.xnor rd rs1 rs2) s 4 rd (fun k => s.xbit rs1 k == s.xbit rs2 k) ∧
    Computes (.max rd rs1 rs2) s 4 rd (s.cfg.word (Max.max (s.xs rs1) (s.xs rs2))) ∧
    Computes (.maxu rd rs1 rs2) s 4 rd (s.cfg.word (Max.max (s.xu rs1) (s.xu rs2))) ∧
    Computes (.min rd rs1 rs2) s 4 rd (s.cfg.word (Min.min (s.xs rs1) (s.xs rs2))) ∧
    Computes (.minu rd rs1 rs2) s 4 rd (s.cfg.word (Min.min (s.xu rs1) (s.xu rs2))) ∧
    Computes (.sext_b rd rs1) s 4 rd (s.cfg.word ((s.xu rs1 : Int).bmod (2 ^ 8))) ∧
    Computes (.sext_h rd rs1) s 4 rd (s.cfg.word ((s.xu rs1 : Int).bmod (2 ^ 16))) ∧
    Computes (.zext_h_rv32 rd rs1) s 4 rd (s.cfg.word (s.xu rs1 % 2 ^ 16)) ∧
    Computes (.zext_h_rv64 rd rs1) s 4 rd (s.cfg.word (s.xu rs1 % 2 ^ 16))

/-- The counts of Zbb (46_b.md R564 to R569). -/
def Obligations.BitCountsCompute : Prop :=
  ∀ (s : State) (rd rs1 : Reg),
    (∃ n, LeadingZeros s rs1 s.xlen n ∧ Computes (.clz rd rs1) s 4 rd (s.cfg.word n)) ∧
    (∃ n, TrailingZeros s rs1 s.xlen n ∧ Computes (.ctz rd rs1) s 4 rd (s.cfg.word n)) ∧
    Computes (.cpop rd rs1) s 4 rd (s.cfg.word ((List.range s.xlen).countP (s.xbit rs1))) ∧
    (∃ n, LeadingZeros s rs1 32 n ∧ Computes (.clzw rd rs1) s 4 rd (s.cfg.word n)) ∧
    (∃ n, TrailingZeros s rs1 32 n ∧ Computes (.ctzw rd rs1) s 4 rd (s.cfg.word n)) ∧
    Computes (.cpopw rd rs1) s 4 rd (s.cfg.word ((List.range 32).countP (s.xbit rs1)))

/-- The rotations and byte operations of Zbb (46_b.md R577 to R584), bit by bit. -/
def Obligations.RotationsAndByteOperationsCompute : Prop :=
  ∀ (s : State) (rd rs1 rs2 : Reg) (shamt : BitVec 6) (shamt5 : BitVec 5),
    ComputesBits (.rol rd rs1 rs2) s 4 rd (fun k => s.xbit rs1 ((k + s.xlen - s.xu rs2 % s.xlen) % s.xlen)) ∧
    ComputesBits (.ror rd rs1 rs2) s 4 rd (fun k => s.xbit rs1 ((k + s.xu rs2) % s.xlen)) ∧
    ComputesBits (.rori rd rs1 shamt) s 4 rd (fun k => s.xbit rs1 ((k + shamt.toNat) % s.xlen)) ∧
    ComputesBits (.orc_b rd rs1) s 4 rd (fun k => (List.range 8).any (fun j => s.xbit rs1 (k / 8 * 8 + j))) ∧
    (s.cfg.xlen = .rv32 → ComputesBits (.rev8_rv32 rd rs1) s 4 rd (fun k => s.xbit rs1 ((3 - k / 8) * 8 + k % 8))) ∧
    (s.cfg.xlen = .rv64 →
      ComputesBits (.rev8_rv64 rd rs1) s 4 rd (fun k => s.xbit rs1 ((7 - k / 8) * 8 + k % 8)) ∧
      ComputesBits (.rolw rd rs1 rs2) s 4 rd (fun k => s.xbit rs1 ((Min.min k 31 + 32 - s.xu rs2 % 32) % 32)) ∧
      ComputesBits (.rorw rd rs1 rs2) s 4 rd (fun k => s.xbit rs1 ((Min.min k 31 + s.xu rs2) % 32)) ∧
      ComputesBits (.roriw rd rs1 shamt5) s 4 rd (fun k => s.xbit rs1 ((Min.min k 31 + shamt5.toNat) % 32)))

/-- Zbc (46_b.md R585 to R587): the low part, the high part and the part from bit XLEN - 1 of the carry-less product.
Zbs (R588 to R595): one bit cleared, read, inverted or set; a register index is taken modulo XLEN. -/
def Obligations.CarrylessAndSingleBitOperationsCompute : Prop :=
  (∀ (s : State) (rd rs1 rs2 : Reg),
     ComputesBits (.clmul rd rs1 rs2) s 4 rd (clmulBit s rs1 rs2) ∧
     ComputesBits (.clmulh rd rs1 rs2) s 4 rd (fun k => clmulBit s rs1 rs2 (k + s.xlen)) ∧
     ComputesBits (.clmulr rd rs1 rs2) s 4 rd (fun k => clmulBit s rs1 rs2 (k + s.xlen - 1))) ∧
  (∀ (s : State) (rd rs1 rs2 : Reg) (shamt : BitVec 6),
     ComputesBits (.bclr rd rs1 rs2) s 4 rd (fun k => s.xbit rs1 k && decide (k ≠ s.xu rs2 % s.xlen)) ∧
     ComputesBits (.bext rd rs1 rs2) s 4 rd (fun k => decide (k = 0) && s.xbit rs1 (s.xu rs2 % s.xlen)) ∧
     ComputesBits (.binv rd rs1 rs2) s 4 rd (fun k => s.xbit rs1 k ^^ decide (k = s.xu rs2 % s.xlen)) ∧
     ComputesBits (.bset rd rs1 rs2) s 4 rd (fun k => s.xbit rs1 k || decide (k = s.xu rs2 % s.xlen)) ∧
     (shamt.toNat < s.xlen →
       ComputesBits (.bclri rd rs1 shamt) s 4 rd (fun k => s.xbit rs1 k && decide (k ≠ shamt.toNat)) ∧
       ComputesBits (.bexti rd rs1 shamt) s 4 rd (fun k => decide (k = 0) && s.xbit rs1 shamt.toNat) ∧
       ComputesBits (.binvi rd rs1 shamt) s 4 rd (fun k => s.xbit rs1 k ^^ decide (k = shamt.toNat)) ∧
       ComputesBits (.bseti rd rs1 shamt) s 4 rd (fun k => s.xbit rs1 k || decide (k = shamt.toNat))))

/-! ### Control transfer -/

/-- A jump (40_rv_i.md R272 to R274; 45_c.md R501, R515, R523, R526) to a target that may be fetched from goes there and
links the address after itself; bit 0 of an indirect target is cleared. A branch (R272, R275 to R280; 45_c.md R516,
R517) that is not taken goes on to the next instruction whatever its offset; one that is taken goes to its target if
that may be fetched from. -/
def Obligations.JumpsAndBranchesGoWhereTheyMust : Prop :=
  (∀ (s : State) (rd rs1 : Reg) (off : BitVec 20) (imm : BitVec 12) (coff : BitVec 11),
     (let t := s.cfg.word (s.pc.toNat + off.toInt * 2)
      s.fetchable t → JumpsTo (.jal rd off) s 4 rd t) ∧
     (let t := s.addr rs1 imm.toInt &&& ~~~1#64
      s.fetchable t → JumpsTo (.jalr rd rs1 imm) s 4 rd t) ∧
     (let t := s.cfg.word (s.pc.toNat + coff.toInt * 2)
      s.fetchable t → JumpsTo (.c_jal coff) s 2 1 t ∧ JumpsTo (.c_j coff) s 2 0 t) ∧
     (let t := s.addr rs1 0 &&& ~~~1#64
      s.fetchable t → JumpsTo (.c_jr rs1) s 2 0 t ∧ JumpsTo (.c_jalr rs1) s 2 1 t)) ∧
  (∀ (s : State) (rs1 rs2 : Reg) (rs1' : CReg) (off : BitVec 12) (coff : BitVec 8),
     let t := s.cfg.word (s.pc.toNat + off.toInt * 2)
     let ct := s.cfg.word (s.pc.toNat + coff.toInt * 2)
     let goes := fun (i : Instr) (taken : Prop) =>
       (¬ taken → Continues i s (s.nextPc 4)) ∧ (taken → s.fetchable t → Continues i s t)
     let cgoes := fun (i : Instr) (taken : Prop) =>
       (¬ taken → Continues i s (s.nextPc 2)) ∧ (taken → s.fetchable ct → Continues i s ct)
     goes (.beq rs1 rs2 off) (s.rx rs1 = s.rx rs2) ∧
     goes (.bne rs1 rs2 off) (s.rx rs1 ≠ s.rx rs2) ∧
     goes (.blt rs1 rs2 off) (s.xs rs1 < s.xs rs2) ∧
     goes (.bge rs1 rs2 off) (s.xs rs2 ≤ s.xs rs1) ∧
     goes (.bltu rs1 rs2 off) (s.xu rs1 < s.xu rs2) ∧
     goes (.bgeu rs1 rs2 off) (s.xu rs2 ≤ s.xu rs1) ∧
     cgoes (.c_beqz rs1' coff) (s.rx rs1'.reg = 0) ∧
     cgoes (.c_bnez rs1' coff) (s.rx rs1'.reg ≠ 0))

/-- A jump or a taken branch to a target that may not be fetched from raises InstructionAddressMisaligned with the
target for trap value; `rd` is not written (40_rv_i.md R272, 60_exceptions.md R724). -/
def Obligations.MisalignedTargetsTrap : Prop :=
  ∀ (s : State) (rd rs1 rs2 : Reg) (off : BitVec 20) (imm : BitVec 12),
    (let t := s.cfg.word (s.pc.toNat + off.toInt * 2)
     ¬ s.fetchable t → Traps (.jal rd off) s .instructionAddressMisaligned t) ∧
    (let t := s.addr rs1 imm.toInt &&& ~~~1#64
     ¬ s.fetchable t → Traps (.jalr rd rs1 imm) s .instructionAddressMisaligned t) ∧
    (let t := s.cfg.word (s.pc.toNat + imm.toInt * 2)
     ¬ s.fetchable t →
      (s.rx rs1 = s.rx rs2 → Traps (.beq rs1 rs2 imm) s .instructionAddressMisaligned t) ∧
      (s.rx rs1 ≠ s.rx rs2 → Traps (.bne rs1 rs2 imm) s .instructionAddressMisaligned t) ∧
      (s.xs rs1 < s.xs rs2 → Traps (.blt rs1 rs2 imm) s .instructionAddressMisaligned t) ∧
      (s.xs rs2 ≤ s.xs rs1 → Traps (.bge rs1 rs2 imm) s .instructionAddressMisaligned t) ∧
      (s.xu rs1 < s.xu rs2 → Traps (.bltu rs1 rs2 imm) s .instructionAddressMisaligned t) ∧
      (s.xu rs2 ≤ s.xu rs1 → Traps (.bgeu rs1 rs2 imm) s .instructionAddressMisaligned t))

/-! ### Compressed instructions -/

/-- The compressed integer instructions (45_c.md R490, R499, R500, R502 to R514, R518, R524, R527) complete in two bytes
with the effect of their expansions. -/
def Obligations.CompressedInstructionsCompute : Prop :=
  ∀ (s : State) (rd rs2 : Reg) (rd' rs2' : CReg) (imm shamt : BitVec 6) (uimm : BitVec 8),
    Computes (.c_addi4spn rd' uimm) s 2 rd'.reg (s.cfg.word (s.xu State.sp + 4 * uimm.toNat)) ∧
    Continues (.c_nop imm) s (s.nextPc 2) ∧
    Computes (.c_addi rd imm) s 2 rd (s.cfg.word (s.xs rd + imm.toInt)) ∧
    Computes (.c_li rd imm) s 2 rd (s.cfg.word imm.toInt) ∧
    Computes (.c_addi16sp imm) s 2 State.sp (s.cfg.word (s.xs State.sp + imm.toInt * 16)) ∧
    Computes (.c_lui rd imm) s 2 rd (s.cfg.word (imm.toInt * 4096)) ∧
    Computes (.c_srli rd' shamt) s 2 rd'.reg (s.cfg.word (s.xu rd'.reg / 2 ^ shamt.toNat)) ∧
    Computes (.c_srai rd' shamt) s 2 rd'.reg (s.cfg.word (s.xs rd'.reg / 2 ^ shamt.toNat)) ∧
    ComputesBits (.c_andi rd' imm) s 2 rd'.reg (fun k => s.xbit rd'.reg k && imm.getLsbD (min k 5)) ∧
    Computes (.c_sub rd' rs2') s 2 rd'.reg (s.cfg.word (s.xs rd'.reg - s.xs rs2'.reg)) ∧
    ComputesBits (.c_xor rd' rs2') s 2 rd'.reg (fun k => s.xbit rd'.reg k ^^ s.xbit rs2'.reg k) ∧
    ComputesBits (.c_or rd' rs2') s 2 rd'.reg (fun k => s.xbit rd'.reg k || s.xbit rs2'.reg k) ∧
    ComputesBits (.c_and rd' rs2') s 2 rd'.reg (fun k => s.xbit rd'.reg k && s.xbit rs2'.reg k) ∧
    Computes (.c_slli rd shamt) s 2 rd (s.cfg.word (s.xu rd * 2 ^ shamt.toNat)) ∧
    Computes (.c_mv rd rs2) s 2 rd (s.cfg.word (s.xu rs2)) ∧
    Computes (.c_add rd rs2) s 2 rd (s.cfg.word (s.xs rd + s.xs rs2)) ∧
    (s.cfg.xlen = .rv64 →
      Computes (.c_addiw rd imm) s 2 rd (word32 (s.xu rd + imm.toInt)) ∧
      Computes (.c_subw rd' rs2') s 2 rd'.reg (word32 (s.xu rd'.reg - s.xu rs2'.reg)) ∧
      Computes (.c_addw rd' rs2') s 2 rd'.reg (word32 (s.xu rd'.reg + s.xu rs2'.reg)))

/-- The arithmetic of Zcb (48_zc.md R677 to R683). The two moves of Zcmp (R696, R698): both registers are written in one
step from values read before, and nothing else changes. -/
def Obligations.ZcbAndDoubleMovesCompute : Prop :=
  (∀ (s : State) (rd rs2 : CReg),
     Computes (.c_zext_b rd) s 2 rd.reg (s.cfg.word (s.xu rd.reg % 2 ^ 8)) ∧
     Computes (.c_sext_b rd) s 2 rd.reg (s.cfg.word ((s.xu rd.reg : Int).bmod (2 ^ 8))) ∧
     Computes (.c_zext_h rd) s 2 rd.reg (s.cfg.word (s.xu rd.reg % 2 ^ 16)) ∧
     Computes (.c_sext_h rd) s 2 rd.reg (s.cfg.word ((s.xu rd.reg : Int).bmod (2 ^ 16))) ∧
     (s.cfg.xlen = .rv64 → Computes (.c_zext_w rd) s 2 rd.reg (s.cfg.word (s.xu rd.reg % 2 ^ 32))) ∧
     ComputesBits (.c_not rd) s 2 rd.reg (fun k => !s.xbit rd.reg k) ∧
     Computes (.c_mul rd rs2) s 2 rd.reg (s.cfg.word (s.xs rd.reg * s.xs rs2.reg))) ∧
  (∀ (s : State) (r1s r2s : BitVec 3),
     (r1s ≠ r2s → ∃ t, exec (.cm_mvsa01 r1s r2s) s = .next t ∧ OnlyX s t ∧ t.pc = s.nextPc 2 ∧
       ∀ k, t.rx k =
         if k = sreg r1s then s.cfg.norm (s.rx 10) else if k = sreg r2s then s.cfg.norm (s.rx 11) else s.rx k) ∧
     (∃ t, exec (.cm_mva01s r1s r2s) s = .next t ∧ OnlyX s t ∧ t.pc = s.nextPc 2 ∧
       ∀ k, t.rx k =
         if k = 10 then s.cfg.norm (s.rx (sreg r1s)) else if k = 11 then s.cfg.norm (s.rx (sreg r2s)) else s.rx k))

/-- A 3-bit register field r names x[8 + r] (10_state.md R42 (d)), and a field of `cm.mvsa01` names s0 to s7 (48_zc.md
R697). The register lists of 48_zc.md R690, `rlist` 4 to 15, are written out, each in the order of its accesses (R691
(a)): n - 3 registers for n from 4 to 14, 13 for 15. So are the stack adjustments for both widths of a register: the
least multiple of 16 that covers the list, plus 16 times `spimm`. -/
def Obligations.StackListsAndRegisterFieldsAreLaidOut : Prop :=
  ((∀ r : CReg, r.reg.toNat = 8 + r.toNat) ∧
   (List.range 8).map (fun r => (sreg (BitVec.ofNat 3 r)).toNat) = [8, 9, 18, 19, 20, 21, 22, 23]) ∧
  (((List.range 12).map (fun n => (listRegs (BitVec.ofNat 4 (n + 4))).map BitVec.toNat) =
     [[1], [8, 1], [9, 8, 1], [18, 9, 8, 1], [19, 18, 9, 8, 1], [20, 19, 18, 9, 8, 1], [21, 20, 19, 18, 9, 8, 1],
       [22, 21, 20, 19, 18, 9, 8, 1], [23, 22, 21, 20, 19, 18, 9, 8, 1], [24, 23, 22, 21, 20, 19, 18, 9, 8, 1],
       [25, 24, 23, 22, 21, 20, 19, 18, 9, 8, 1], [27, 26, 25, 24, 23, 22, 21, 20, 19, 18, 9, 8, 1]]) ∧
   (∀ rlist : BitVec 4, 4 ≤ rlist.toNat →
     listCount rlist = (if rlist = 15 then 13 else rlist.toNat - 3) ∧ (listRegs rlist).length = listCount rlist) ∧
   (∀ (c : Config) (spimm : BitVec 2),
     (List.range 12).map (fun n => (stackAdj c (BitVec.ofNat 4 (n + 4)) spimm).toNat) =
       (match c.xlen with
        | .rv32 => [16, 16, 16, 16, 32, 32, 32, 32, 48, 48, 48, 64]
        | .rv64 => [16, 16, 32, 32, 48, 48, 64, 64, 80, 80, 96, 112]).map (· + spimm.toNat * 16)) ∧
   (∀ (c : Config) (rlist : BitVec 4) (spimm : BitVec 2), 4 ≤ rlist.toNat →
     (stackAdj c rlist spimm).toNat % 16 = 0 ∧
     listCount rlist * c.xlen.bytes + spimm.toNat * 16 ≤ (stackAdj c rlist spimm).toNat ∧
     (stackAdj c rlist spimm).toNat < listCount rlist * c.xlen.bytes + spimm.toNat * 16 + 16))

/-- Zcmt (48_zc.md R699 to R701): the entry of the table at `jvt` is read with execute permission; the instruction jumps
to it with bit 0 cleared, and `cm.jalt` links in x1. That the entry is what memory holds now, with no stale copy of it,
is the model's choice (log 7); R699 promises it only after `fence.i`. -/
def Obligations.TableJumpsGoToTheEntry : Prop :=
  ∀ (s : State) (index : BitVec 5) (index8 : BitVec 8) (pa : Nat),
    (let va := s.cfg.word ((s.csr.jvt &&& ~~~63#64).toNat + index.toNat * s.cfg.xlen.bytes)
     s.alignedAddr .table va s.cfg.xlen.bytes = .ok pa → s.inMain pa s.cfg.xlen.bytes →
      Continues (.cm_jt index) s (BitVec.ofNat 64 (leNat s.mem pa s.cfg.xlen.bytes) &&& ~~~1#64)) ∧
    (let va := s.cfg.word ((s.csr.jvt &&& ~~~63#64).toNat + index8.toNat * s.cfg.xlen.bytes)
     s.alignedAddr .table va s.cfg.xlen.bytes = .ok pa → s.inMain pa s.cfg.xlen.bytes →
      JumpsTo (.cm_jalt index8) s 2 1 (BitVec.ofNat 64 (leNat s.mem pa s.cfg.xlen.bytes) &&& ~~~1#64))

/-! ### Memory -/

/-- A write of n bytes replaces those bytes, least significant first, and no other (20_memory.md R106), and a read of
them gives the low n bytes of the value. Two memories in canonical form that read the same at every address are the
same. -/
def Obligations.MemoryReadsWhatWasWritten : Prop :=
  (∀ (m : List Host.Cell) (a n : Nat) (v : Word),
     (∀ b, memGet (memWrite m a n v) b =
       if a ≤ b ∧ b < a + n then v.extractLsb' (8 * (b - a)) 8 else memGet m b) ∧
     (n ≤ 8 → (memRead m a n).toNat = leNat m a n ∧ (memRead (memWrite m a n v) a n).toNat = v.toNat % 2 ^ (8 * n))) ∧
  (∀ m m' : List Host.Cell, Memory.wf m → Memory.wf m' → (∀ a, memGet m a = memGet m' a) → m = m')

/-- Every load into an integer register completes on main memory: `lb`, `lh`, `lw`, `lbu`, `lhu`, `lwu`, `ld`, `c.lw`,
`c.ld`, `c.lwsp`, `c.ldsp`, `c.lbu`, `c.lhu`, `c.lh` (20_memory.md R101; 40_rv_i.md R263 to R268; 41_rv64i.md R309,
R310; 45_c.md; 48_zc.md R672 to R674). With the unit on so does every floating-point load, which boxes what it read
(44_fd.md R404): `flw`, `fld`, `flh`, `c.flw`, `c.fld`, `c.flwsp`, `c.fldsp`. -/
def Obligations.LoadsReadMainMemory : Prop :=
  (∀ (s : State) (i : Instr) (m : MemOp), s.loadOf i = some m → LoadsMain i s m) ∧
  (∀ (s : State) (i : Instr) (f : Fmt) (m : MemOp), s.fpLoadOf i = some (f, m) → s.csr.mstatus.fs ≠ 0 →
     LoadsMainF i s f m)

/-- Every store completes on main memory (20_memory.md R101; 40_rv_i.md R263, R269 to R271; 41_rv64i.md R311; 45_c.md
R496, R498, R529, R531; 48_zc.md R675, R676): `sb`, `sh`, `sw`, `sd`, `c.sw`, `c.sd`, `c.swsp`, `c.sdsp`, `c.sb`,
`c.sh`; with the unit on also the floating-point stores, without a box check (44_fd.md R404): `fsw`, `fsd`, `fsh`,
`c.fsw`, `c.fsd`, `c.fswsp`, `c.fsdsp`. -/
def Obligations.StoresWriteMainMemory : Prop :=
  ∀ (s : State) (i : Instr) (m : MemOp),
    (s.storeOf i = some m → StoresMain i s m (s.rx m.reg)) ∧
    (s.fpStoreOf i = some m → s.csr.mstatus.fs ≠ 0 → StoresMain i s m (s.rf m.reg))

/-- An access outside main memory completes too, and no byte of memory changes (20_memory.md R114): every load and
store, integer and floating-point, the AMOs, `lr` and `sc`. What is read is the value of the CLINT register or bytes the
device chooses; a store writes the CLINT register. That a store to any other device changes no state is the model's
choice (log 12). The register map of the core-local interruptor (60_exceptions.md R770): which aligned access names
which register, and that every other offset is vacant; that there are at most 4095 harts is the model's choice (log 16).
A register reads what was written to it, whole or the half an access names; the other half and every other register are
kept. Of the `lr` and `sc` clauses it is the model's choice that the reservation is kept and compared by effective
address (log 13), and that an `sc` needs R beside W (log 28); whether a covering reservation succeeds is the free draw
(log 8). -/
def Obligations.DeviceAccessesComplete : Prop :=
  (∀ (s : State) (i : Instr) (m : MemOp) (pa : Nat), ¬ s.inMain pa m.bytes →
     (s.alignedAddr .load m.va m.bytes = .ok pa →
       (s.loadOf i = some m →
         ∃ v, s.DeviceValue .load m.va pa m.bytes v ∧
           Computes i s m.len m.reg
             (s.cfg.word (if m.signed then (v.toNat : Int).bmod (2 ^ (8 * m.bytes)) else v.toNat))) ∧
       (∀ f, s.fpLoadOf i = some (f, m) → s.csr.mstatus.fs ≠ 0 →
         ∃ v t, s.DeviceValue .load m.va pa m.bytes v ∧ exec i s = .next t ∧ LoadedF s t m.len f m.reg v)) ∧
     (s.alignedAddr .store m.va m.bytes = .ok pa →
       ∀ v, (s.storeOf i = some m ∧ v = s.rx m.reg ∨ s.fpStoreOf i = some m ∧ s.csr.mstatus.fs ≠ 0 ∧ v = s.rf m.reg) →
         ∃ t, exec i s = .next t ∧ t.pc = s.nextPc m.len ∧ t.csr.minstret = s.retired ∧
           s.DeviceStored t.clint pa m.bytes v ∧
           t = { s with pc := t.pc, csr := { s.csr with minstret := t.csr.minstret }, clint := t.clint })) ∧
  ((∀ (s : State) (i : Instr) (a : AmoOp) (pa : Nat), amoOf i = some a →
     s.alignedAddr .amo (s.rx a.rs1) a.bytes = .ok pa → ¬ s.inMain pa a.bytes →
     ∃ v t, s.DeviceValue .amo (s.rx a.rs1) pa a.bytes v ∧ exec i s = .next t ∧
       s.DeviceStored t.clint pa a.bytes (BitVec.ofNat 64 (a.op v.toNat ((s.rx a.rs2).toNat % 2 ^ (8 * a.bytes)))) ∧
       WroteX { s with clint := t.clint } t (s.nextPc 4) a.rd (s.cfg.word (signedOf a.bytes v.toNat))) ∧
   (∀ (s : State) (i : Instr) (rd rs1 : Reg) (n pa : Nat), lrOf i = some (rd, rs1, n) →
     s.alignedAddr .lr (s.rx rs1) n = .ok pa → ¬ s.inMain pa n →
     ∃ v t, s.DeviceValue .lr (s.rx rs1) pa n v ∧ exec i s = .next t ∧ t.resv = some (s.rx rs1, n) ∧
       WroteX { s with resv := t.resv } t (s.nextPc 4) rd (s.cfg.word (signedOf n v.toNat))) ∧
   (∀ (s : State) (i : Instr) (rd rs1 rs2 : Reg) (n pa : Nat), scOf i = some (rd, rs1, rs2, n) →
     s.alignedAddr .sc (s.rx rs1) n = .ok pa → ¬ s.inMain pa n →
     let covers := ∃ a m, s.resv = some (a, m) ∧ (s.rx rs1).toNat / s.cfg.granule = a.toNat / s.cfg.granule ∧
       ((s.rx rs1).toNat + n - 1) / s.cfg.granule = a.toNat / s.cfg.granule
     ∃ t, exec i s = .next t ∧
       (covers ∧ Config.scFails s.draws = false →
         s.DeviceStored t.clint pa n (s.rx rs2) ∧
         WroteX { s with resv := none, clint := t.clint } t (s.nextPc 4) rd 0) ∧
       (¬ covers ∨ Config.scFails s.draws = true → WroteX { s with resv := none } t (s.nextPc 4) rd 1))) ∧
  (∀ (c : Config) (h : Nat), c.harts ≤ Config.maxHarts →
     (h < c.harts →
       clintReg c (4 * h) 4 = some (.msip h) ∧
       clintReg c (0x4000 + 8 * h) 4 = some (.mtimecmp h .lo) ∧
       clintReg c (0x4000 + 8 * h + 4) 4 = some (.mtimecmp h .hi) ∧
       (c.xlen = .rv64 → clintReg c (0x4000 + 8 * h) 8 = some (.mtimecmp h .both))) ∧
     clintReg c 0xBFF8 4 = some (.mtime .lo) ∧ clintReg c 0xBFFC 4 = some (.mtime .hi) ∧
     (c.xlen = .rv64 → clintReg c 0xBFF8 8 = some (.mtime .both)) ∧
     (c.xlen = .rv32 → ∀ off, clintReg c off 8 = none) ∧
     (∀ off, off < 4 * c.harts → clintReg c off 8 = none) ∧
     ∀ off n, n ≠ 4 ∧ n ≠ 8 ∨ off % n ≠ 0 ∨ 4 * c.harts ≤ off ∧ off < 0x4000 ∨
         0x4000 + 8 * c.harts ≤ off ∧ off < 0xBFF8 ∨ 0xC000 ≤ off →
       clintReg c off n = none) ∧
  (∀ (c : Clint) (v : Word) (h h' : Nat) (p p' : Part), h < c.mtimecmp.length → h < c.msip.length →
     ((c.put v (.mtime p)).get (.mtime p) = partGet v (if p = .both then .both else .lo) ∧
      (c.put v (.mtimecmp h p)).get (.mtimecmp h p) = partGet v (if p = .both then .both else .lo) ∧
      (c.put v (.msip h)).get (.msip h) = v &&& 1) ∧
     (∀ r ∈ [ClintReg.mtime, .mtimecmp h],
       (c.put v (r .lo)).get (r .hi) = c.get (r .hi) ∧ (c.put v (r .hi)).get (r .lo) = c.get (r .lo) ∧
       c.get (r .both) = BitVec.ofNat 64 ((c.get (r .lo)).toNat + 2 ^ 32 * (c.get (r .hi)).toNat)) ∧
     (h' ≠ h →
       (c.put v (.mtimecmp h p)).get (.mtimecmp h' p') = c.get (.mtimecmp h' p') ∧
       (c.put v (.msip h)).get (.msip h') = c.get (.msip h')) ∧
     ((c.put v (.mtime p)).get (.mtimecmp h' p') = c.get (.mtimecmp h' p') ∧
      (c.put v (.mtime p)).get (.msip h') = c.get (.msip h') ∧
      (c.put v (.mtimecmp h p)).get (.mtime p') = c.get (.mtime p') ∧
      (c.put v (.mtimecmp h p)).get (.msip h') = c.get (.msip h') ∧
      (c.put v (.msip h)).get (.mtime p') = c.get (.mtime p') ∧
      (c.put v (.msip h)).get (.mtimecmp h' p') = c.get (.mtimecmp h' p')))

/-- The checks of an access, in their order (20_memory.md R101, R105, R111, R112; 60_exceptions.md R735): alignment,
translation, region. Without translation the physical address is the virtual address (20_memory.md R122). -/
def Obligations.AccessChecksComeInOrder : Prop :=
  (∀ (s : State) (k : Access) (va : Word) (n : Nat),
     (va.toNat % n ≠ 0 → s.alignedAddr k va n = .error (misalignedExc k)) ∧
     (va.toNat % n = 0 → ∀ e, s.translate k va = .error e → s.alignedAddr k va n = .error e) ∧
     (va.toNat % n = 0 → ∀ pa, s.translate k va = .ok pa →
       (regionOk s.cfg k pa n = false → s.alignedAddr k va n = .error (accessExc k)) ∧
       (regionOk s.cfg k pa n = true → s.alignedAddr k va n = .ok pa))) ∧
  (∀ (s : State) (k : Access) (va : Word), s.untranslated k → s.translate k va = .ok va.toNat)

/-- The codes of the exceptions (60_exceptions.md R720). A data access that fails its checks raises the exception that
20_memory.md R112 names for it, with the effective address for trap value; no register and no byte of memory is written
(R101, R105; 40_rv_i.md R263; 43_a.md R351). All loads and `lr` raise 4, 5 or 13, all stores, `sc` and the AMOs 6, 7 or
15: misaligned under MISALIGNED = trap, for `lr`, `sc` and the AMOs under either setting (20_memory.md R111); a page or
an access fault where translation fails; an access fault where no region that holds the bytes has what R105 asks. That
an `sc` needs R beside W is the model's choice (log 28). The first access of a push raises 6, 7 or 15, that of a pop 4,
5 or 13 (48_zc.md R691); what a later one does, the statements of push and pop say. A table read raises 1 or 12 with the
address of the entry, and x1 is not written (R699). A fetch raises 1 or 12 with the address of the parcel. -/
def Obligations.FailedAccessesTrap : Prop :=
  ([Exc.instructionAddressMisaligned, .instructionAccessFault, .illegalInstruction, .breakpoint, .loadAddressMisaligned,
       .loadAccessFault, .storeAmoAddressMisaligned, .storeAmoAccessFault, .ecallFromU, .ecallFromS, .ecallFromM,
       .instructionPageFault, .loadPageFault, .storeAmoPageFault].map Exc.code =
     [0, 1, 2, 3, 4, 5, 6, 7, 8, 9, 11, 12, 13, 15]) ∧
  (∀ (s : State) (i : Instr) (k : Access) (va : Word) (n : Nat), s.accessOf i = some (k, va, n) →
     (s.fpAccess i → s.csr.mstatus.fs ≠ 0) →
     (va.toNat % n ≠ 0 → (s.cfg.misaligned = .trap ∨ k = .lr ∨ k = .sc ∨ k = .amo) → Traps i s (misalignedOf k) va) ∧
     (va.toNat % n = 0 →
       (∀ e, s.translate k va = .error e → (e = accessFaultOf k ∨ e = pageFaultOf k) ∧ Traps i s e va) ∧
       (∀ pa, s.translate k va = .ok pa → s.noRegion k pa n ∨ regionOk s.cfg k pa n = false →
         Traps i s (accessFaultOf k) va))) ∧
  (∀ (s : State) (rlist : BitVec 4) (spimm : BitVec 2), 4 ≤ rlist.toNat →
     let n := s.cfg.xlen.bytes
     let fails := fun (k : Access) (va : Word) (e : Exc) =>
       va.toNat % n ≠ 0 ∧ s.cfg.misaligned = .trap ∧ e = misalignedOf k ∨
       va.toNat % n = 0 ∧ s.translate k va = .error e ∨
       ∃ pa, va.toNat % n = 0 ∧ s.translate k va = .ok pa ∧ (s.noRegion k pa n ∨ regionOk s.cfg k pa n = false) ∧
         e = accessFaultOf k
     (∀ e, fails .push (s.slot s.pushTop 0) e →
       e ∈ [Exc.storeAmoAddressMisaligned, .storeAmoAccessFault, .storeAmoPageFault] ∧
       Traps (.cm_push rlist spimm) s e (s.slot s.pushTop 0)) ∧
     (let va := s.slot (s.popTop rlist spimm) 0
      ∀ e, fails .pop va e →
       e ∈ [Exc.loadAddressMisaligned, .loadAccessFault, .loadPageFault] ∧
       Traps (.cm_pop rlist spimm) s e va ∧ Traps (.cm_popret rlist spimm) s e va ∧
       Traps (.cm_popretz rlist spimm) s e va)) ∧
  (∀ (s : State) (index : BitVec 5) (index8 : BitVec 8),
     let n := s.cfg.xlen.bytes
     let traps := fun (i : Instr) (va : Word) =>
       (∀ e, s.translate .table va = .error e →
         (e = .instructionAccessFault ∨ e = .instructionPageFault) ∧ Traps i s e va) ∧
       (∀ pa, s.translate .table va = .ok pa → s.noRegion .table pa n ∨ regionOk s.cfg .table pa n = false →
         Traps i s .instructionAccessFault va)
     traps (.cm_jt index) (s.cfg.word ((s.csr.jvt &&& ~~~63#64).toNat + index.toNat * n)) ∧
     traps (.cm_jalt index8) (s.cfg.word ((s.csr.jvt &&& ~~~63#64).toNat + index8.toNat * n))) ∧
  (∀ (s : State) (va : Word), va.toNat % 2 = 0 →
     (∀ e, s.alignedAddr .fetch va 2 = .error e →
       (e = .instructionAccessFault ∨ e = .instructionPageFault) ∧ (va = s.pc → s.fetch = .error (e, va))) ∧
     (∀ pa, s.translate .fetch va = .ok pa → s.noRegion .fetch pa 2 → s.alignedAddr .fetch va 2 = .error .instructionAccessFault))

/-- Under MISALIGNED = support (20_memory.md R111) a misaligned load whose bytes may all be accessed gets them, wherever
each of them lies, and an untranslated misaligned store writes them all, whatever order they are accessed in (the order
is a free draw, log 10). A misaligned access to any other region than a `main` one with `misaligned_ok` raises the
access fault of its kind with the effective address for trap value (R111, 60_exceptions.md R721 (e)). Else the first
byte that fails raises its exception with its own address, and a store leaves the bytes before it written. A store,
translated or not, goes byte by byte: each byte is translated and checked as the ones before it left memory, and it
completes once every byte is written. How a byte is checked, and that the region of the access is that of its first
byte, is the model's choice (log 18). -/
def Obligations.SplitAccessesReachEveryByte : Prop :=
  (∀ (s : State) (i : Instr) (m : MemOp) (pa : Nat), s.cfg.misaligned = .support → m.va.toNat % m.bytes ≠ 0 →
     s.bytesAt .load m.va m.bytes pa →
     (s.loadOf i = some m →
       Computes i s m.len m.reg
         (s.cfg.word (if m.signed then leInt s.mem pa m.bytes else leNat s.mem pa m.bytes))) ∧
     (∀ f, s.fpLoadOf i = some (f, m) → s.csr.mstatus.fs ≠ 0 →
       ∃ t, exec i s = .next t ∧ LoadedF s t m.len f m.reg (BitVec.ofNat 64 (leNat s.mem pa m.bytes)))) ∧
  (∀ (s : State) (i : Instr) (m : MemOp) (pa : Nat → Nat), s.cfg.misaligned = .support → m.va.toNat % m.bytes ≠ 0 →
     (∀ j < m.bytes, s.splitAddr .load (s.byteAddr m.va j) = .ok (pa j)) →
     let v := gatherNat s.mem pa m.bytes
     (s.loadOf i = some m →
       Computes i s m.len m.reg (s.cfg.word (if m.signed then (v : Int).bmod (2 ^ (8 * m.bytes)) else v))) ∧
     (∀ f, s.fpLoadOf i = some (f, m) → s.csr.mstatus.fs ≠ 0 →
       ∃ t, exec i s = .next t ∧ LoadedF s t m.len f m.reg (BitVec.ofNat 64 v))) ∧
  (∀ (s : State) (i : Instr) (m : MemOp) (pa : Nat), s.cfg.misaligned = .support → m.va.toNat % m.bytes ≠ 0 →
     s.untranslated .store → s.bytesAt .store m.va m.bytes pa →
     (s.storeOf i = some m → Stores i s m.len pa m.bytes (s.rx m.reg)) ∧
     (s.fpStoreOf i = some m → s.csr.mstatus.fs ≠ 0 → Stores i s m.len pa m.bytes (s.rf m.reg))) ∧
  (∀ (s : State) (i : Instr) (k : Access) (va : Word) (n : Nat), s.accessOf i = some (k, va, n) → k = .load ∨ k = .store →
     (s.fpAccess i → s.csr.mstatus.fs ≠ 0) → s.cfg.misaligned = .support → va.toNat % n ≠ 0 →
     (∀ pa, s.translate k va = .ok pa → s.noSplit pa → Traps i s (accessFaultOf k) va) ∧
     ((∀ pa, s.translate k va = .ok pa → splitOk s.cfg pa = true) →
       (∃ j < n, ∃ e, s.splitAddr k (s.byteAddr va j) = .error e) →
       (k = .load →
         ∃ j < n, ∃ e, s.splitAddr k (s.byteAddr va j) = .error e ∧ (e = .loadAccessFault ∨ e = .loadPageFault) ∧
           Traps i s e (s.byteAddr va j)) ∧
       (k = .store → s.untranslated k →
         ∃ (done : List Nat) (j : Nat) (t : State),
           j < n ∧ j ∉ done ∧ s.splitAddr k (s.byteAddr va j) = .error .storeAmoAccessFault ∧
           exec i s = .next (t.take .storeAmoAccessFault (s.byteAddr va j)) ∧ t = { s with mem := t.mem } ∧
           (∀ l ∈ done, l < n ∧ s.splitAddr k (s.byteAddr va l) = .ok (s.byteAddr va l).toNat) ∧
           (∀ l ∈ done, ∀ m, (s.storeOf i = some m → memGet t.mem (s.byteAddr va l).toNat = (s.rx m.reg).extractLsb' (8 * l) 8) ∧
             (s.fpStoreOf i = some m → memGet t.mem (s.byteAddr va l).toNat = (s.rf m.reg).extractLsb' (8 * l) 8)) ∧
           (∀ a, (∀ l ∈ done, a ≠ (s.byteAddr va l).toNat) → memGet t.mem a = memGet s.mem a)))) ∧
  (∀ (s : State) (i : Instr) (m : MemOp) (v : Word),
     s.storeOf i = some m ∧ v = s.rx m.reg ∨ s.fpStoreOf i = some m ∧ s.csr.mstatus.fs ≠ 0 ∧ v = s.rf m.reg →
     s.cfg.misaligned = .support → m.va.toNat % m.bytes ≠ 0 →
     (∀ pa, s.translate .store m.va = .ok pa → splitOk s.cfg pa = true) →
     ∃ (order : List Nat) (c : Nat → State) (d : Nat), SplitStoresTo s .store m.va m.bytes v order c d ∧
       if d = m.bytes then
         ∃ t, exec i s = .next t ∧ t.pc = s.nextPc m.len ∧ t.csr.minstret = s.retired ∧
           t = { c d with pc := t.pc, csr := { s.csr with minstret := t.csr.minstret } }
       else
         ∃ e tval, SplitStoreFails s .store m.va order c d e tval ∧ exec i s = .next ((c d).take e tval))

/-- Translation applies under Sv32 or Sv39 to an access made in S-mode or U-mode; elsewhere the physical address is the
virtual one (20_memory.md R103, R122). It succeeds exactly when the walk that begins at `satp.PPN` and follows valid
pointer entries reaches a valid leaf that permits the access, is aligned to its page and has A, and for a store D, set;
the address is then that page with the offset kept (R123 to R127). A table entry that may not be read raises the access
fault of the access (R116), and every other failed walk, like an address Sv39 does not translate, its page fault. That
the walk reads memory as it is now, with no stale copy of an entry, is the model's choice (log 7). -/
def Obligations.TranslatedAccessesNeedAPermittedLeaf : Prop :=
  ∀ (s : State) (k : Access) (va : Word),
    (¬ s.pagingOn ∨ s.privilegeOf k = .m → s.translate k va = .ok va.toNat) ∧
    (s.pagingOn → s.privilegeOf k ≠ .m →
      (¬ s.canonical va → s.translate k va = .error (pageFaultOf k)) ∧
      (s.canonical va →
        (∀ pa, s.translate k va = .ok pa ↔
          ∃ level table, s.Reaches k va level table ∧ s.entryReadable va level table ∧
            ValidEntry s.cfg.xlen (s.entry k va level table) ∧ LeafEntry (s.entry k va level table) ∧
            s.LeafPermits k level (s.entry k va level table) ∧ pa = s.leafAddr va level (s.entry k va level table)) ∧
        ∀ level table, s.Reaches k va level table →
          let pte := s.entry k va level table
          (¬ s.entryReadable va level table → s.translate k va = .error (accessFaultOf k)) ∧
          (s.entryReadable va level table →
            ¬ ValidEntry s.cfg.xlen pte ∨ LeafEntry pte ∧ ¬ s.LeafPermits k level pte ∨
              ¬ LeafEntry pte ∧ (level = 0 ∨ ∃ j ∈ [4, 6, 7], pte.getLsbD j = true) →
            s.translate k va = .error (pageFaultOf k))))

/-! ### Control and status registers -/

/-- The six CSR instructions complete when the access check passes (40_rv_i.md R250 to R256): `x[rd]` gets the old
value, zero-extended, and the register what its field rules keep of the value written; `csrrs`, `csrrc` with `rs1` = x0
and `csrrsi`, `csrrci` with a zero immediate do not write. The instruction is counted unless it writes the count itself
(10_state.md R80). That a write of either half of `minstret` takes the place of the count (log 14), and that a write of
`mcountinhibit` counts by its new value (log 15), is the model's choice. -/
def Obligations.CsrInstructionsComplete : Prop :=
  ∀ (s : State) (rd rs1 uimm : Reg) (a : BitVec 12) (r : Csr),
    let old := s.csrBase r
    (s.csrAccess a true = some r →
      AccessesCsr (.csrrw rd rs1 a) s rd r (some (s.rx rs1)) ∧
      AccessesCsr (.csrrwi rd uimm a) s rd r (some (uimm.setWidth 64)) ∧
      (rs1 ≠ 0 → AccessesCsr (.csrrs rd rs1 a) s rd r (some (old ||| s.rx rs1)) ∧
        AccessesCsr (.csrrc rd rs1 a) s rd r (some (old &&& ~~~s.rx rs1))) ∧
      (uimm ≠ 0 → AccessesCsr (.csrrsi rd uimm a) s rd r (some (old ||| uimm.setWidth 64)) ∧
        AccessesCsr (.csrrci rd uimm a) s rd r (some (old &&& ~~~uimm.setWidth 64)))) ∧
    (s.csrAccess a false = some r →
      AccessesCsr (.csrrs rd 0 a) s rd r none ∧ AccessesCsr (.csrrc rd 0 a) s rd r none ∧
      AccessesCsr (.csrrsi rd 0 a) s rd r none ∧ AccessesCsr (.csrrci rd 0 a) s rd r none)

/-- The CSR access check (10_state.md R52, R81; 60_exceptions.md R723 (f)): an access is refused exactly when the
register does not exist, the mode is too low, a read-only register would be written, a floating-point register is named
with the unit off, `satp` is named in S-mode under TVM, or a counter is not enabled for the mode. The registers, their
addresses and the configurations that have them are the table of 10_state.md R53, and the counters are numbered as R81
says; every CSR instruction needs EXT_ZICSR. A refused CSR access raises IllegalInstruction with the bits of the
instruction for trap value (10_state.md R52, 60_exceptions.md R721 (c)). -/
def Obligations.CsrAccessIsChecked : Prop :=
  (∀ (s : State) (a : BitVec 12) (writes : Bool),
     s.csrAccess a writes = none ↔
       ∀ r, Csr.ofAddr a.toNat = some r →
         r.present s.cfg = false ∨ s.priv.code < a.extractLsb' 8 2 ∨ (writes = true ∧ a.extractLsb' 10 2 = 3#2) ∨
         ((r = .fflags ∨ r = .frm ∨ r = .fcsr) ∧ s.csr.mstatus.fs = 0) ∨
         (r = .satp ∧ s.priv = .s ∧ s.csr.mstatus.tvm = true) ∨
         (∃ n, r.counter = some n ∧
           ((s.priv ≠ .m ∧ s.csr.mcounteren.getLsbD n = false) ∨
             (s.priv = .u ∧ s.cfg.extS = true ∧ s.csr.scounteren.getLsbD n = false)))) ∧
  ((∀ (c : Config) (a : Nat) (r : Csr), c.extZicsr = true →
     (Csr.ofAddr a = some r ∧ r.present c = true ↔ (a, r) ∈ csrTable c) ∧
     ((a, r) ∈ csrTable c →
       r.counter = if 0xC00 ≤ a ∧ a < 0xC20 ∨ 0xC80 ≤ a ∧ a < 0xCA0 then some (a % 32) else none)) ∧
   (∀ (s : State) (a : BitVec 12) (writes : Bool) (r : Csr),
     s.csrAccess a writes = some r → Csr.ofAddr a.toNat = some r) ∧
   [Priv.u, .s, .m].map (fun p => p.code.toNat) = [0, 1, 3]) ∧
  (∀ (s : State) (rd rs1 uimm : Reg) (a : BitVec 12),
     (s.csrAccess a true = none →
       Traps (.csrrw rd rs1 a) s .illegalInstruction (encode (.csrrw rd rs1 a)).bits ∧
       Traps (.csrrwi rd uimm a) s .illegalInstruction (encode (.csrrwi rd uimm a)).bits) ∧
     (s.csrAccess a (rs1 != 0) = none →
       Traps (.csrrs rd rs1 a) s .illegalInstruction (encode (.csrrs rd rs1 a)).bits ∧
       Traps (.csrrc rd rs1 a) s .illegalInstruction (encode (.csrrc rd rs1 a)).bits) ∧
     (s.csrAccess a (uimm != 0) = none →
       Traps (.csrrsi rd uimm a) s .illegalInstruction (encode (.csrrsi rd uimm a)).bits ∧
       Traps (.csrrci rd uimm a) s .illegalInstruction (encode (.csrrci rd uimm a)).bits))

/-- What a CSR reads as after a write of an XLEN-bit value (10_state.md R49, R54, R59 to R73, R80): the registers with
storage keep every bit or those their rule names; a `MODE` that is not allowed leaves `mtvec` and `stvec` as they are.
`satp` keeps MODE, PPN and the low ASIDLEN bits of the ASID, and a MODE that is not supported changes nothing (R69). Of
`mip` only SSIP, STIP and SEIP are written, SEIP is read ORed with its input, and a read-modify-write takes the written
bit alone (R61); `sie` and `sip` are views of what is delegated, and through `sip` only SSIP is written (R68). On XLEN =
32 the two halves of a counter are written apart (R80). `fcsr` is `frm` above `fflags` (R49). The read-only registers
read as R55, R57, R58 and R72 say, and a write leaves them. A write changes only the fields of the register it names:
every other field, register and byte of memory stays. What `mstatus` and `sstatus` read as after a write, in every
configuration (10_state.md R54, R56): the fields of an absent S, U or F read 0, `MPP` takes a configured mode or keeps
its value, `SD` is the summary of `FS`, UXL and SXL are 2 on XLEN = 64 where the mode exists; `sstatus` is a view of the
same bits. -/
def Obligations.CsrsKeepLegalValues : Prop :=
  (∀ (s : State) (v : Word), s.cfg.norm v = v →
     (∀ r ∈ [Csr.mscratch, .sscratch, .mcause, .scause, .mtval, .stval], (s.csrPut r v).csrGet r = v) ∧
     (∀ r ∈ [Csr.mepc, .sepc], (s.csrPut r v).csrGet r = if s.cfg.extC then v &&& ~~~1#64 else v &&& ~~~3#64) ∧
     (∀ r ∈ [Csr.mtvec, .stvec],
       (s.csrPut r v).csrGet r =
         if v.toNat % 4 = 0 ∨ v.toNat % 4 = 1 ∧ s.cfg.mtvecVectored = true then v else s.csrGet r) ∧
     (s.csrPut .medeleg v).csrGet .medeleg = v &&& 0xB3FF#64 ∧
     (s.csrPut .mideleg v).csrGet .mideleg = v &&& 0x222#64 ∧
     (s.csrPut .mie v).csrGet .mie = v &&& (if s.cfg.extS then 0xAAA#64 else 0x888#64) ∧
     (∀ r ∈ [Csr.mcounteren, .scounteren], (s.csrPut r v).csrGet r = v &&& 0xFFFFFFFF#64) ∧
     (s.csrPut .mcountinhibit v).csrGet .mcountinhibit = v &&& 5#64 ∧
     (s.csrPut .jvt v).csrGet .jvt = v &&& ~~~63#64 ∧
     (s.csrPut .fflags v).csrGet .fflags = v &&& 31#64 ∧
     (s.csrPut .frm v).csrGet .frm = v &&& 7#64 ∧
     (s.csrPut .fcsr v).csrGet .fcsr = v &&& 255#64 ∧
     (∀ r ∈ [Csr.mcycle, .minstret], (s.csrPut r v).csrGet r = v) ∧
     (∀ r ∈ [Csr.mvendorid, .marchid, .mimpid, .mconfigptr, .senvcfg, .menvcfg, .menvcfgh, .mstatush,
         .misa, .mhartid], s.csrPut r v = s)) ∧
  (∀ (s : State) (v : Word), s.cfg.norm v = v →
     (let mode := fun w : Word => match s.cfg.xlen with
        | .rv32 => w.toNat / 2 ^ 31
        | .rv64 => w.toNat / 2 ^ 60
      let asid := fun w : Word => match s.cfg.xlen with
        | .rv32 => w.toNat / 2 ^ 22 % 2 ^ 9
        | .rv64 => w.toNat / 2 ^ 44 % 2 ^ 16
      let new := (s.csrPut .satp v).csrGet .satp
      if mode v = 0 ∨ s.cfg.paging = true ∧ mode v = (if s.cfg.xlen = .rv32 then 1 else 8) then
        mode new = mode v ∧ new.toNat % 2 ^ ppnWidth s.cfg.xlen = v.toNat % 2 ^ ppnWidth s.cfg.xlen ∧
          asid new = asid v % 2 ^ s.cfg.asidLen
      else s.csrPut .satp v = s) ∧
     (∀ k, ((s.csrPut .mip v).csrGet .mip).getLsbD k =
       if k = 1 ∨ k = 5 then s.cfg.extS && v.getLsbD k
       else if k = 9 then s.cfg.extS && (v.getLsbD 9 || s.lines.seip)
       else if k = 3 ∨ k = 7 ∨ k = 11 then (s.csrGet .mip).getLsbD k
       else false) ∧
     (s.csrBase .mip).getLsbD 9 = (s.cfg.extS && s.csr.seip) ∧
     (∀ k, (s.csrGet .sie).getLsbD k = ((s.csrGet .mideleg).getLsbD k && (s.csrGet .mie).getLsbD k) ∧
       (s.csrGet .sip).getLsbD k = ((s.csrGet .mideleg).getLsbD k && (s.csrGet .mip).getLsbD k)) ∧
     (∀ k, ((s.csrPut .sie v).csrGet .mie).getLsbD k =
       if (s.csrGet .mideleg).getLsbD k then v.getLsbD k && (if s.cfg.extS then 0xAAA#64 else 0x888#64).getLsbD k
       else (s.csrGet .mie).getLsbD k) ∧
     (∀ k, ((s.csrPut .sip v).csrGet .mip).getLsbD k =
       if k = 1 ∧ (s.csrGet .mideleg).getLsbD 1 = true then s.cfg.extS && v.getLsbD 1 else (s.csrGet .mip).getLsbD k) ∧
     (s.cfg.xlen = .rv32 →
       ∀ p ∈ [(Csr.mcycle, Csr.mcycleh), (.minstret, .minstreth)],
         (s.csrPut p.2 v).csrGet p.2 = v ∧ (s.csrPut p.2 v).csrGet p.1 = s.csrGet p.1 ∧
         (s.csrPut p.1 v).csrGet p.2 = s.csrGet p.2) ∧
     ((s.csrGet .fcsr).toNat = s.frm.toNat * 32 + s.fflags.toNat ∧ s.csrGet .frm = s.frm.setWidth 64 ∧
      s.csrGet .fflags = s.fflags.setWidth 64 ∧ (s.csrPut .fcsr v).fflags = v.setWidth 5 ∧
      (s.csrPut .fcsr v).frm = (v >>> 5).setWidth 3 ∧
      ∀ r ∈ [Csr.fflags, .frm, .fcsr], (s.csrPut r v).csr.mstatus.fs = 3)) ∧
  (∀ s : State,
     (∀ r ∈ [Csr.mvendorid, .marchid, .mimpid, .mconfigptr, .menvcfg, .menvcfgh, .senvcfg, .mstatush], s.csrGet r = 0) ∧
     s.csrGet .mhartid = s.cfg.word s.cfg.hartId ∧
     ∀ k, (s.csrGet .misa).getLsbD k =
       if k = 0 then s.cfg.extA
       else if k = 1 then s.cfg.extZba && s.cfg.extZbb && s.cfg.extZbs
       else if k = 2 then s.cfg.extC
       else if k = 3 then s.cfg.extD
       else if k = 4 then s.cfg.rv32e
       else if k = 5 then s.cfg.extF
       else if k = 8 then !s.cfg.rv32e
       else if k = 12 then s.cfg.extM
       else if k = 18 then s.cfg.extS
       else if k = 20 then s.cfg.extU
       else match s.cfg.xlen with
         | .rv32 => decide (k = 30)
         | .rv64 => decide (k = 63)) ∧
  (∀ (s : State) (r : Csr) (v : Word), s.csrPut r v = s.csrFrame (s.csrPut r v) r) ∧
  (∀ (s : State) (v : Word),
     let read := fun (t : State) (k : Nat) => (t.csrGet .mstatus).getLsbD k
     let mpp := v.extractLsb' 11 2
     (∀ k, read (s.csrPut .mstatus v) k =
       if k = 3 ∨ k = 7 then v.getLsbD k
       else if k ∈ [1, 5, 8, 18, 19, 20, 22] then s.cfg.extS && v.getLsbD k
       else if k = 17 ∨ k = 21 then s.cfg.extU && v.getLsbD k
       else if k = 13 ∨ k = 14 then s.cfg.extF && v.getLsbD k
       else if k = 11 ∨ k = 12 then
         (if mpp = 3 ∨ mpp = 1 ∧ s.cfg.extS = true ∨ mpp = 0 ∧ s.cfg.extU = true then v.getLsbD k else read s k)
       else if k = s.xlen - 1 then s.cfg.extF && v.getLsbD 13 && v.getLsbD 14
       else if k = 33 then decide (s.cfg.xlen = .rv64) && s.cfg.extU
       else if k = 35 then decide (s.cfg.xlen = .rv64) && s.cfg.extS
       else false) ∧
     (∀ k, read (s.csrPut .sstatus v) k =
       if k ∈ [1, 5, 8, 18, 19] then s.cfg.extS && v.getLsbD k
       else if k = 13 ∨ k = 14 then s.cfg.extF && v.getLsbD k
       else if k = s.xlen - 1 then s.cfg.extF && v.getLsbD 13 && v.getLsbD 14
       else read s k) ∧
     (∀ k, (s.csrGet .sstatus).getLsbD k =
       (decide (k ∈ [1, 5, 6, 8, 9, 10, 13, 14, 15, 16, 18, 19, s.xlen - 1] ∨ s.cfg.xlen = .rv64 ∧ (k = 32 ∨ k = 33)) &&
         read s k)))

/-! ### Traps and privilege -/

/-- `ecall`, `ebreak` and `c.ebreak` take their exception and do nothing else (40_rv_i.md R257, R258; 45_c.md R525;
60_exceptions.md R725, R728): the call of the current mode with trap value 0, the breakpoint with the trap value
EBREAK_TVAL says; the saved `pc` is that of the instruction, which is not counted. A call from M-mode goes to M-mode and
cannot be delegated. -/
def Obligations.CallsAndBreakpointsTrap : Prop :=
  (∀ s : State,
     (s.priv = .u → Traps .ecall s .ecallFromU 0) ∧ (s.priv = .s → Traps .ecall s .ecallFromS 0) ∧
     (s.priv = .m → Traps .ecall s .ecallFromM 0) ∧
     Traps .ebreak s .breakpoint (if s.cfg.ebreakTval = .pc then s.pc else 0) ∧
     Traps .c_ebreak s .breakpoint (if s.cfg.ebreakTval = .pc then s.pc else 0)) ∧
  (∀ (s : State) (e : Exc) (tval : Word),
     e ∈ [Exc.ecallFromU, .ecallFromS, .ecallFromM, .breakpoint] → SavesPc s (s.take e tval) ∧
       (e = .ecallFromM → s.priv = .m → (s.take e tval).priv = .m)) ∧
  (∀ (s : State) (v : Word), ((s.csrPut .medeleg v).csrGet .medeleg).getLsbD 11 = false)

/-- Trap entry (60_exceptions.md R740, R743), for an exception and for an interrupt. The registers of the mode it goes
to get the address, the cause (its top bit says interrupt) and the trap value; the status stack of that mode is pushed;
`pc` goes to the base of its vector, or under Vectored for an interrupt to base + 4 * code; the reservation is lost. No
other register, flag, field or byte changes. An exception goes to S-mode when it is raised below M-mode and delegated,
else to M-mode (R741). -/
def Obligations.TrapsEnterTheirMode : Prop :=
  (∀ (s : State) (intr : Bool) (code : Nat) (epc tval : Word), code < 16 →
     let ms := s.csr.mstatus
     let cause : Word := BitVec.ofNat 64 (if intr then 2 ^ (s.xlen - 1) + code else code)
     let target := fun tvec : Word =>
       if intr = true ∧ tvec.extractLsb' 0 2 = 1#2 then s.cfg.word ((tvec &&& ~~~3#64).toNat + 4 * code)
       else tvec &&& ~~~3#64
     s.trapM intr code epc tval =
       { s with
         csr :=
           { s.csr with
             mepc := epc, mcause := cause, mtval := tval
             mstatus := { ms with mpie := ms.mie, mie := false, mpp := s.priv } }
         priv := .m, pc := target s.csr.mtvec, resv := none, waiting := false } ∧
     (s.priv ≠ .m →
       s.trapS intr code epc tval =
         { s with
           csr :=
             { s.csr with
               sepc := epc, scause := cause, stval := tval
               mstatus := { ms with spie := ms.sie, sie := false, spp := decide (s.priv = .s) } }
           priv := .s, pc := target s.csr.stvec, resv := none, waiting := false })) ∧
  (∀ (s : State) (e : Exc) (tval : Word),
     s.take e tval =
       if s.priv ≠ .m ∧ s.cfg.extS = true ∧ s.csr.medeleg.getLsbD e.code = true then s.trapS false e.code s.pc tval
       else s.trapM false e.code s.pc tval)

/-- Which interrupt is taken (60_exceptions.md R733, R734): an interrupt is takeable when it is pending and enabled and
its destination's mode admits it; one is taken exactly when one is takeable; every interrupt for M-mode comes before
every one for S-mode, and within a destination 11 comes first, then 3, 7, 9, 1, 5. Its entry is that of the interrupt
alone: every other one stays pending. -/
def Obligations.InterruptsAreTakenByPriority : Prop :=
  ∀ s : State,
    let toM := fun i => s.pending.getLsbD i = true ∧ ¬ (s.cfg.extS = true ∧ s.csr.mideleg.getLsbD i = true) ∧
      (s.priv ≠ .m ∨ s.csr.mstatus.mie = true)
    let toS := fun i => s.pending.getLsbD i = true ∧ (s.cfg.extS = true ∧ s.csr.mideleg.getLsbD i = true) ∧
      (s.priv = .u ∨ s.priv = .s ∧ s.csr.mstatus.sie = true)
    let first := fun (ok : Nat → Prop) i =>
      ok i ∧ ∃ before after, interruptOrder = before ++ i :: after ∧ ∀ j ∈ before, ¬ ok j
    interruptOrder = [11, 3, 7, 9, 1, 5] ∧
    (∀ i, first toM i → s.interrupt = some (s.trapM true i s.pc 0)) ∧
    (∀ i, (∀ j ∈ interruptOrder, ¬ toM j) → first toS i → s.interrupt = some (s.trapS true i s.pc 0)) ∧
    ((∀ j ∈ interruptOrder, ¬ toM j ∧ ¬ toS j) → s.interrupt = none)

/-- `mret` and `sret` complete where they are legal (60_exceptions.md R750, R751): the status stack is popped, the mode
and `pc` are those saved, the reservation is lost, the instruction is counted, and nothing else changes. Where they are
not legal they raise IllegalInstruction with their bits for trap value (R723 (g)). -/
def Obligations.ReturnsRestoreTheirMode : Prop :=
  (∀ s : State,
     let ms := s.csr.mstatus
     let target := fun epc : Word => if s.cfg.extC then epc &&& ~~~1#64 else epc &&& ~~~3#64
     (s.priv = .m →
       exec .mret s = .next
         { s with
           csr :=
             { s.csr with
               minstret := s.retired
               mstatus :=
                 { ms with
                   mie := ms.mpie, mpie := true, mpp := if s.cfg.extU then .u else .m
                   mprv := if ms.mpp = .m then ms.mprv else false } }
           priv := ms.mpp, pc := target s.csr.mepc, resv := none }) ∧
     (s.cfg.extS = true → s.priv = .m ∨ s.priv = .s ∧ ms.tsr = false →
       exec .sret s = .next
         { s with
           csr :=
             { s.csr with
               minstret := s.retired
               mstatus := { ms with sie := ms.spie, spie := true, spp := false, mprv := false } }
           priv := if ms.spp then .s else .u, pc := target s.csr.sepc, resv := none })) ∧
  (∀ s : State,
     (s.priv ≠ .m → Traps .mret s .illegalInstruction 0x30200073#64) ∧
     (s.priv = .u ∨ s.priv = .s ∧ s.csr.mstatus.tsr = true ∨ s.cfg.extS = false →
       Traps .sret s .illegalInstruction 0x10200073#64))

/-- The fences and `wfi` complete where they are legal and change nothing but `pc`, the count and, for `wfi`, whether
the hart waits (40_rv_i.md R245, R246, R261, R262; 60_exceptions.md R765). Where they are not legal they raise
IllegalInstruction with their bits for trap value (60_exceptions.md R723 (g)). That `fence.i` and `sfence.vma` have
nothing to do is the model's choice (log 7); whether a `wfi` waits is a free draw (log 11). -/
def Obligations.FencesAndWaitsComplete : Prop :=
  (∀ (s : State) (fm pred succ : BitVec 4) (imm : BitVec 12) (rs1 rs2 rd : Reg),
     Continues (.fence fm pred succ rs1 rd) s (s.nextPc 4) ∧
     Continues (.fence_i imm rs1 rd) s (s.nextPc 4) ∧
     (s.cfg.extS = true → s.priv = .m ∨ s.priv = .s ∧ s.csr.mstatus.tvm = false →
       Continues (.sfence_vma rs1 rs2) s (s.nextPc 4)) ∧
     (s.priv = .m ∨ s.csr.mstatus.tw = false ∧ (s.priv = .s ∨ s.cfg.wfiU = true) →
       ∃ waits, exec .wfi s = .next
         { s with waiting := waits, pc := s.nextPc 4, csr := { s.csr with minstret := s.retired } })) ∧
  (∀ (s : State) (rs1 rs2 : Reg),
     (s.priv ≠ .m ∧ s.csr.mstatus.tw = true ∨ s.priv = .u ∧ s.cfg.wfiU = false →
       Traps .wfi s .illegalInstruction 0x10500073#64) ∧
     (s.priv = .u ∨ s.priv = .s ∧ s.csr.mstatus.tvm = true ∨ s.cfg.extS = false →
       Traps (.sfence_vma rs1 rs2) s .illegalInstruction
         ((0b0001001#7 ++ rs2 ++ rs1 ++ 0b000#3 ++ 0b00000#5 ++ 0b1110011#7 : BitVec 32).setWidth 64)))

/-- An instruction leaves the mode as it is, or returns from a trap, or ends in an exception taken at the trap vector;
only `mret` and `sret` lower it (10_state.md R50; 60_exceptions.md R741, R761). -/
def Obligations.ModeChangesOnlyByTrapsAndReturns : Prop :=
  ∀ (s : State) (i : Instr) (t : State), exec i s = .next t →
    (t.priv.code < s.priv.code → i = .mret ∨ i = .sret) ∧
    (t.priv ≠ s.priv → i ≠ .mret → i ≠ .sret →
      (t.priv = .m ∧ t.csr.mepc = s.pc ∧ t.csr.mstatus.mpp = s.priv ∧ t.pc = s.csr.mtvec &&& ~~~3#64) ∨
      (t.priv = .s ∧ s.priv = .u ∧ t.csr.sepc = s.pc ∧ t.pc = s.csr.stvec &&& ~~~3#64))

/-- No instruction run in U-mode changes a CSR that U-mode may not access, but for the following (10_state.md R52;
60_exceptions.md R722, R740, R760, R762). One that ends in an exception changes of the CSRs with storage only the saved
address, cause and trap value of the mode it goes to and the fields of `mstatus` that trap entry writes there;
`minstret`, `jvt` and `mstatus.FS` stay. One that stays in U-mode is counted, and may set `mstatus.FS` from a state
other than Off to Dirty and write `jvt`, which U-mode may access (R73). `fflags` and `frm`, which it may access too, are
not spoken of; nor are the counters' own advance, memory and the CLINT. -/
def Obligations.UserModeCannotChangePrivilegedState : Prop :=
  ∀ (s : State) (i : Instr) (t : State), s.priv = .u → exec i s = .next t →
    (t.cfg = s.cfg ∧ t.lines = s.lines ∧ t.env = s.env) ∧
    (∀ r ∈ [Csr.medeleg, .mideleg, .mie, .mtvec, .stvec, .mscratch, .sscratch, .satp, .mcounteren, .scounteren,
        .mcountinhibit, .mhartid, .misa], t.csrGet r = s.csrGet r) ∧
    (t.csr.ssip = s.csr.ssip ∧ t.csr.stip = s.csr.stip ∧ t.csr.seip = s.csr.seip ∧ t.csr.mcycle = s.csr.mcycle) ∧
    (t.csr.mstatus.mprv = s.csr.mstatus.mprv ∧ t.csr.mstatus.sum = s.csr.mstatus.sum ∧
      t.csr.mstatus.mxr = s.csr.mstatus.mxr ∧ t.csr.mstatus.tvm = s.csr.mstatus.tvm ∧
      t.csr.mstatus.tw = s.csr.mstatus.tw ∧ t.csr.mstatus.tsr = s.csr.mstatus.tsr) ∧
    (t.priv = .u →
      t.csr =
        { s.csr with
          minstret := s.retired, jvt := t.csr.jvt, mstatus := { s.csr.mstatus with fs := t.csr.mstatus.fs } } ∧
      (t.csr.mstatus.fs = s.csr.mstatus.fs ∨ s.csr.mstatus.fs ≠ 0 ∧ t.csr.mstatus.fs = 3)) ∧
    (t.priv = .s →
      t.csr =
        { s.csr with
          sepc := t.csr.sepc, scause := t.csr.scause, stval := t.csr.stval
          mstatus :=
            { s.csr.mstatus with sie := t.csr.mstatus.sie, spie := t.csr.mstatus.spie, spp := t.csr.mstatus.spp } }) ∧
    (t.priv = .m →
      t.csr =
        { s.csr with
          mepc := t.csr.mepc, mcause := t.csr.mcause, mtval := t.csr.mtval
          mstatus :=
            { s.csr.mstatus with mie := t.csr.mstatus.mie, mpie := t.csr.mstatus.mpie, mpp := t.csr.mstatus.mpp } })

/-! ### Atomics -/

/-- `lr` completes on memory that supports it (43_a.md R351, R353, R360, R371): `x[rd]` gets the value, sign-extended,
and the reservation is that address and width, whatever it was before. `sc` completes (R354, R355, R361, R372): it
succeeds only when the reservation covers its bytes; then it stores and writes 0; otherwise it writes 1 and stores
nothing. Whether a covering reservation succeeds is the free draw (log 8). Either way the reservation is gone. That the
reservation is kept and compared by effective address (log 13), and that an `sc` needs R beside W (log 28), is the
model's choice. -/
def Obligations.LoadReservedAndStoreConditionalComplete : Prop :=
  (∀ (s : State) (i : Instr) (rd rs1 : Reg) (n pa : Nat), lrOf i = some (rd, rs1, n) →
     s.alignedAddr .lr (s.rx rs1) n = .ok pa → s.inMain pa n →
     ∃ t, exec i s = .next t ∧ t.resv = some (s.rx rs1, n) ∧
       WroteX { s with resv := t.resv } t (s.nextPc 4) rd (s.cfg.word (leInt s.mem pa n))) ∧
  (∀ (s : State) (i : Instr) (rd rs1 rs2 : Reg) (n pa : Nat), scOf i = some (rd, rs1, rs2, n) →
     s.alignedAddr .sc (s.rx rs1) n = .ok pa → s.inMain pa n →
     let covers := ∃ a m, s.resv = some (a, m) ∧ (s.rx rs1).toNat / s.cfg.granule = a.toNat / s.cfg.granule ∧
       ((s.rx rs1).toNat + n - 1) / s.cfg.granule = a.toNat / s.cfg.granule
     ∃ t, exec i s = .next t ∧ t.resv = none ∧
       ((covers ∧ Config.scFails s.draws = false →
           StoredBytes s t pa n (s.rx rs2) ∧
           WroteX { s with resv := none, mem := t.mem } t (s.nextPc 4) rd 0) ∧
         (¬ covers ∨ Config.scFails s.draws = true →
           WroteX { s with resv := none } t (s.nextPc 4) rd 1)))

/-- The eighteen AMOs complete on memory that supports them (43_a.md R351, R357, R362 to R370, R373 to R381): `x[rd]`
gets the old value, sign-extended, the bytes the result of the operator on the old value and the low bytes of `x[rs2]`,
and nothing else changes. -/
def Obligations.AtomicOperationsComplete : Prop :=
  ∀ (s : State) (i : Instr) (a : AmoOp) (pa : Nat), amoOf i = some a →
    s.alignedAddr .amo (s.rx a.rs1) a.bytes = .ok pa → s.inMain pa a.bytes →
    ∃ t, exec i s = .next t ∧
      StoredBytes s t pa a.bytes
        (BitVec.ofNat 64 (a.op (leNat s.mem pa a.bytes) ((s.rx a.rs2).toNat % 2 ^ (8 * a.bytes)))) ∧
      WroteX { s with mem := t.mem } t (s.nextPc 4) a.rd (s.cfg.word (leInt s.mem pa a.bytes))

/-! ### Push and pop -/

/-- `cm.push` completes when its slots are distinct places of main memory that may be written (48_zc.md R690 to R692):
slot `j` below the old `sp` holds register `j` of the list, highest first; `sp` goes down by the stack adjustment; every
other register and byte is as before. In general, translated and misaligned too, it makes one store after another; when
the last has completed `sp` goes down; when one fails its exception is taken with the trap value of that store, the
earlier stores stay, and every register is as it was (R691 (a), (b)). That value is the address of the store; that it is
the address of the byte where the store fails in one of its bytes (20_memory.md R112) is the model's choice (log 29).
Each store is checked like `sw` or `sd`, and one to an `io` region raises StoreAMOAccessFault (R691 (d)); bytewise ones
go as log 18 says. -/
def Obligations.PushStoresTheList : Prop :=
  (∀ (s : State) (rlist : BitVec 4) (spimm : BitVec 2) (pa : Nat), 4 ≤ rlist.toNat → s.untranslated .push →
     (∀ j < listCount rlist,
       s.alignedAddr .push (s.slot ((s.xu State.sp : Int) - s.cfg.xlen.bytes) j) s.cfg.xlen.bytes =
         .ok (pa - j * s.cfg.xlen.bytes) ∧ s.inMain (pa - j * s.cfg.xlen.bytes) s.cfg.xlen.bytes) →
     listCount rlist * s.cfg.xlen.bytes ≤ pa →
     ∃ t, exec (.cm_push rlist spimm) s = .next t ∧
       (∀ j r, (listRegs rlist)[j]? = some r →
         leNat t.mem (pa - j * s.cfg.xlen.bytes) s.cfg.xlen.bytes = s.xu r) ∧
       (∀ a,
         (∀ j < listCount rlist,
           ¬ (pa - j * s.cfg.xlen.bytes ≤ a ∧ a < pa - j * s.cfg.xlen.bytes + s.cfg.xlen.bytes)) →
         memGet t.mem a = memGet s.mem a) ∧
       WroteX { s with mem := t.mem } t (s.nextPc 2) State.sp
         (s.cfg.word (s.xu State.sp - (stackAdj s.cfg rlist spimm).toNat))) ∧
  (∀ (s : State) (rlist : BitVec 4) (spimm : BitVec 2), 4 ≤ rlist.toNat →
     ∃ (c : Nat → State) (n : Nat), n ≤ listCount rlist ∧ PushesTo s rlist c n ∧
       if n = listCount rlist then
         ∃ t, exec (.cm_push rlist spimm) s = .next t ∧
           WroteX (c n) t (s.nextPc 2) State.sp (s.cfg.word (s.xu State.sp - (stackAdj s.cfg rlist spimm).toNat))
       else
         ∃ r e tval t, (listRegs rlist)[n]? = some r ∧
           (c n).write .push (s.slot s.pushTop n) s.cfg.xlen.bytes (s.rx r) = .error (e, tval, t) ∧
           exec (.cm_push rlist spimm) s = .next (t.take e tval) ∧
           t = { s with mem := t.mem, clint := t.clint }) ∧
  (∀ (s : State) (va v : Word),
     let n := s.cfg.xlen.bytes
     (∀ pa, s.alignedAddr .push va n = .ok pa → s.inMain pa n →
       ∃ t, s.write .push va n v = .ok t ∧ t = { s with mem := t.mem } ∧ StoredBytes s t pa n v) ∧
     (va.toNat % n ≠ 0 → s.cfg.misaligned = .trap → s.write .push va n v = .error (.storeAmoAddressMisaligned, va, s)) ∧
     (∀ e, va.toNat % n = 0 → s.translate .push va = .error e →
       (e = .storeAmoAccessFault ∨ e = .storeAmoPageFault) ∧ s.write .push va n v = .error (e, va, s)) ∧
     (∀ pa, va.toNat % n = 0 → s.translate .push va = .ok pa →
       (∀ r ∈ s.cfg.regions, r.base ≤ pa → pa + n ≤ r.base + r.size → r.kind = .io ∨ r.w = false) →
       s.write .push va n v = .error (.storeAmoAccessFault, va, s)) ∧
     (∀ pa, va.toNat % n ≠ 0 → s.cfg.misaligned = .support → s.translate .push va = .ok pa → s.noSplit pa →
       s.write .push va n v = .error (.storeAmoAccessFault, va, s)) ∧
     (∀ pa, va.toNat % n ≠ 0 → s.cfg.misaligned = .support → s.cfg.norm va = va → s.untranslated .push →
       s.bytesAt .push va n pa →
       ∃ t, s.write .push va n v = .ok t ∧ t = { s with mem := t.mem } ∧ StoredBytes s t pa n v)) ∧
  (∀ (s : State) (va v : Word),
     let n := s.cfg.xlen.bytes
     va.toNat % n ≠ 0 → s.cfg.misaligned = .support → (∀ pa, s.translate .push va = .ok pa → splitOk s.cfg pa = true) →
       (∀ e tval t, s.write .push va n v = .error (e, tval, t) →
         (e = .storeAmoAccessFault ∨ e = .storeAmoPageFault) ∧ ∃ j < n, tval = s.byteAddr va j) ∧
       (s.untranslated .push → (∃ j < n, ∃ e, s.splitAddr .push (s.byteAddr va j) = .error e) →
         ∃ j < n, ∃ t, s.splitAddr .push (s.byteAddr va j) = .error .storeAmoAccessFault ∧
           s.write .push va n v = .error (.storeAmoAccessFault, s.byteAddr va j, t))) ∧
  (∀ (s : State) (va v : Word),
     let n := s.cfg.xlen.bytes
     va.toNat % n ≠ 0 → s.cfg.misaligned = .support → (∀ pa, s.translate .push va = .ok pa → splitOk s.cfg pa = true) →
       ∃ (order : List Nat) (c : Nat → State) (d : Nat), SplitStoresTo s .push va n v order c d ∧
         if d = n then s.write .push va n v = .ok (c d)
         else ∃ e tval, SplitStoreFails s .push va order c d e tval ∧ s.write .push va n v = .error (e, tval, c d))

/-- `cm.pop`, `cm.popret` and `cm.popretz` complete when their slots are main memory that may be read (48_zc.md R690,
R691, R693 to R695): register `j` of the list gets slot `j` below the new `sp`; `sp` goes up by the stack adjustment;
`cm.popret` and `cm.popretz` return to the loaded x1 with bit 0 cleared, and `cm.popretz` clears x10. No byte of memory
changes. In general, translated and misaligned too, they make one load after another; when one fails its exception is
taken with the trap value of that load, the registers loaded before keep their values, and `sp`, x10, `pc` and memory
are as they were (R691 (a), (b)). That value is the address of the load; that it is the address of the byte where the
load fails in one of its bytes (20_memory.md R112) is the model's choice (log 29). Each load is checked like `lw` or
`ld`, and one from an `io` region raises LoadAccessFault (R691 (d)); bytewise ones go as log 18 says. -/
def Obligations.PopsLoadTheList : Prop :=
  (∀ (s : State) (rlist : BitVec 4) (spimm : BitVec 2) (pa : Nat → Nat), 4 ≤ rlist.toNat →
     (∀ j < listCount rlist,
       s.alignedAddr .pop
           (s.slot ((s.xu State.sp : Int) + (stackAdj s.cfg rlist spimm).toNat - s.cfg.xlen.bytes) j) s.cfg.xlen.bytes =
         .ok (pa j) ∧ s.inMain (pa j) s.cfg.xlen.bytes) →
     let slot := fun j => BitVec.ofNat 64 (leNat s.mem (pa j) s.cfg.xlen.bytes)
     let newSp := s.cfg.word (s.xu State.sp + (stackAdj s.cfg rlist spimm).toNat)
     let pops := fun (t : State) (clears : Prop) => OnlyX s t ∧ t.rx State.sp = newSp ∧
       (∀ j r, (listRegs rlist)[j]? = some r → t.rx r = slot j) ∧
       (∀ r, r ≠ State.sp → r ∉ listRegs rlist → (r = 10 → ¬ clears) → t.rx r = s.rx r) ∧ (clears → t.rx 10 = 0)
     (∃ t, exec (.cm_pop rlist spimm) s = .next t ∧ pops t False ∧ t.pc = s.nextPc 2) ∧
     (∃ t, exec (.cm_popret rlist spimm) s = .next t ∧ pops t False ∧ t.pc = t.rx 1 &&& ~~~1#64) ∧
     (∃ t, exec (.cm_popretz rlist spimm) s = .next t ∧ pops t True ∧ t.pc = t.rx 1 &&& ~~~1#64)) ∧
  (∀ (s : State) (rlist : BitVec 4) (spimm : BitVec 2), 4 ≤ rlist.toNat →
     ∃ (c : Nat → State) (n : Nat), n ≤ listCount rlist ∧ PopsTo s rlist spimm c n ∧
       if n = listCount rlist then
         let newSp := s.cfg.word (s.xu State.sp + (stackAdj s.cfg rlist spimm).toNat)
         (∃ t, exec (.cm_pop rlist spimm) s = .next t ∧ WroteX (c n) t (s.nextPc 2) State.sp newSp) ∧
         (∃ t, exec (.cm_popret rlist spimm) s = .next t ∧
           WroteX (c n) t ((c n).rx 1 &&& ~~~1#64) State.sp newSp) ∧
         (∃ t, exec (.cm_popretz rlist spimm) s = .next t ∧
           WroteX ((c n).wx 10 0) t ((c n).rx 1 &&& ~~~1#64) State.sp newSp)
       else
         ∃ e tval, (c n).read .pop (s.slot (s.popTop rlist spimm) n) s.cfg.xlen.bytes = .error (e, tval) ∧
           (∀ i ∈ [Instr.cm_pop rlist spimm, .cm_popret rlist spimm, .cm_popretz rlist spimm],
             exec i s = .next ((c n).take e tval)) ∧
           c n = { s with x := (c n).x } ∧ (c n).rx State.sp = s.rx State.sp) ∧
  (∀ (s : State) (va : Word),
     let n := s.cfg.xlen.bytes
     (∀ pa, s.alignedAddr .pop va n = .ok pa → s.inMain pa n →
       s.read .pop va n = .ok (BitVec.ofNat 64 (leNat s.mem pa n))) ∧
     (va.toNat % n ≠ 0 → s.cfg.misaligned = .trap → s.read .pop va n = .error (.loadAddressMisaligned, va)) ∧
     (∀ e, va.toNat % n = 0 → s.translate .pop va = .error e →
       (e = .loadAccessFault ∨ e = .loadPageFault) ∧ s.read .pop va n = .error (e, va)) ∧
     (∀ pa, va.toNat % n = 0 → s.translate .pop va = .ok pa →
       (∀ r ∈ s.cfg.regions, r.base ≤ pa → pa + n ≤ r.base + r.size → r.kind = .io ∨ r.r = false) →
       s.read .pop va n = .error (.loadAccessFault, va)) ∧
     (∀ pa, va.toNat % n ≠ 0 → s.cfg.misaligned = .support → s.translate .pop va = .ok pa → s.noSplit pa →
       s.read .pop va n = .error (.loadAccessFault, va)) ∧
     (∀ pa, va.toNat % n ≠ 0 → s.cfg.misaligned = .support → s.cfg.norm va = va → s.bytesAt .pop va n pa →
       s.read .pop va n = .ok (BitVec.ofNat 64 (leNat s.mem pa n)))) ∧
  (∀ (s : State) (va : Word),
     let n := s.cfg.xlen.bytes
     va.toNat % n ≠ 0 → s.cfg.misaligned = .support → (∀ pa, s.translate .pop va = .ok pa → splitOk s.cfg pa = true) →
       (∃ j < n, ∃ e, s.splitAddr .pop (s.byteAddr va j) = .error e) →
       ∃ j < n, ∃ e, s.splitAddr .pop (s.byteAddr va j) = .error e ∧ (e = .loadAccessFault ∨ e = .loadPageFault) ∧
         s.read .pop va n = .error (e, s.byteAddr va j)) ∧
  (∀ (s : State) (va : Word) (pa : Nat → Nat),
     let n := s.cfg.xlen.bytes
     va.toNat % n ≠ 0 → s.cfg.misaligned = .support → s.cfg.norm va = va →
       (∀ j < n, s.splitAddr .pop (s.byteAddr va j) = .ok (pa j)) →
       s.read .pop va n = .ok (BitVec.ofNat 64 (gatherNat s.mem pa n)))

/-! ### Reset and the step -/

/-- The state after reset (10_state.md R95; 70_reset_and_hazards.md R790 to R792): the values the spec gives. Nothing is
said of the registers the spec leaves unspecified. -/
def Obligations.ResetLeavesTheStatedValues : Prop :=
  ∀ c : Config,
    let s := State.resetWith c
    s.cfg = c ∧ s.pc = c.resetPc ∧ s.priv = .m ∧ s.csr.mstatus.mie = false ∧ s.csr.mstatus.mprv = false ∧
    s.csr.mstatus.fs = 0 ∧ s.csr.mie = 0 ∧ s.csr.ssip = false ∧ s.csr.stip = false ∧ s.csr.seip = false ∧
    s.paged = false ∧ s.csr.mcause = 0 ∧ s.csr.mcounteren = 0 ∧ s.csr.scounteren = 0 ∧ s.csr.mcountinhibit = 0 ∧
    s.resv = none ∧ s.waiting = false ∧ (∀ h, s.clint.get (.msip h) = 0) ∧ s.interrupt = none

/-- The invariant holds after reset, under every configuration the spec admits. The values of the registers the spec
leaves unspecified are the choice of the model (log 3), and so is the width they are held in (log 2). -/
def Obligations.ResetMeetsTheInvariant : Prop := ∀ c : Config, c.wf = true → (State.resetWith c).Inv

/-- Every step keeps the invariant, from every state that meets it: the memory stays canonical, `pc` aligned
(10_state.md R46), every register within its width, the mode a configured one, the CSRs legal (R74), and the parameters
as they are. That a register is held in 64 bits with zeros above its width is the choice of the model (log 2). -/
def Obligations.EveryStepKeepsTheInvariant : Prop :=
  ∀ s t : State, s.Inv → step s = .next t → t.Inv ∧ t.cfg = s.cfg

/-- The machine never stops: under a configuration the spec admits every step answers a next state, whatever the state
(60_exceptions.md R720: every failure is a trap). -/
def Obligations.EveryStepAnswers : Prop := ∀ s : State, s.cfg.wf = true → s.answers

/-- A step of a hart that is awake, with no interrupt to take, runs the instruction its fetch gives: the next state is
that of `exec` with the counters advanced; bits that are no instruction raise IllegalInstruction with the bits for trap
value; a fetch that fails raises its exception (00_scope.md R26). A hart that waits and wakes runs its instruction in
the same step, and the inputs are read before anything else: that order is the model's choice (log 26). -/
def Obligations.StepRunsTheDecodedInstruction : Prop :=
  ∀ (s : State), s.cfg.wf = true → (s.waiting = false ∨ s.sample.wakes = true) →
    let u := { s.sample with waiting := false }
    u.interrupt = none →
    (∀ code i t, u.fetch = .ok code → decode s.cfg code = .ok i → exec i u = .next t → step s = .next t.tick) ∧
    (∀ code r, u.fetch = .ok code → decode s.cfg code = .error r →
      step s = .next (u.take .illegalInstruction code.bits).tick) ∧
    (∀ e tval, u.fetch = .error (e, tval) → step s = .next (u.take e tval).tick)

/-- An interrupt is taken before the instruction at `pc` is fetched (60_exceptions.md R733, R735). A waiting hart that
an interrupt wakes, pending and enabled, or that wakes for a reason of its own (a free draw, log 11) goes on as if
awake; any other changes no state of its own: only the inputs, the platform's timer and the model's own fields go on
(R765). That a hart wakes and goes on in one step (log 26), and that `mcycle` stays while it waits (log 17), is the
model's choice. -/
def Obligations.InterruptsComeFirstAndWaitingHartsIdle : Prop :=
  ∀ s : State, s.cfg.wf = true →
    (∀ t, s.waiting = false → s.sample.interrupt = some t → step s = .next t.tick) ∧
    (s.sample.wakes = true ↔ s.sample.pending ≠ 0 ∨ Config.spuriousWake s.draws = true) ∧
    (s.waiting = true →
      if s.sample.wakes = true then step s = step { s with waiting := false }
      else ∃ t, step s = .next t ∧
        t =
          { s with
            lines := t.lines, env := t.env, draws := t.draws, clint := { s.clint with mtime := t.clint.mtime } })

/-- The fetch reads the parcels of the instruction, the first at `pc` and the second, whenever bits [1:0] of the first
are 11, two bytes on (20_memory.md R115; 30_encoding.md R150): the bytes of main memory, little-endian (R107), or from
an `io` region with X what the device answers, a free draw (R114, log 12). A fault on the second parcel has its address
for trap value, also where the first says that the encoding is longer than 32 bits; otherwise such an encoding is
illegal, with its first parcel for trap value. That those of main memory are the bytes it holds now is the model's
choice among those of 20_memory.md R135 (log 7). -/
def Obligations.FetchReadsTheBytesAtPc : Prop :=
  (∀ (s : State) (va : Word) (pa : Nat), s.alignedAddr .fetch va 2 = .ok pa → ∃ w, s.Parcel va w) ∧
  ∀ (s : State) (lo : BitVec 16), s.Parcel s.pc lo →
    (lo.extractLsb' 0 2 ≠ 3#2 → s.fetch = .ok (.half lo)) ∧
    (lo.extractLsb' 0 2 = 3#2 →
      (∀ hi, s.Parcel (s.nextPc 2) hi →
        s.fetch =
          if lo.extractLsb' 2 3 = 7#3 then .error (.illegalInstruction, lo.setWidth 64) else .ok (.word (hi ++ lo))) ∧
      (∀ e, s.alignedAddr .fetch (s.nextPc 2) 2 = .error e → s.fetch = .error (e, s.nextPc 2)))

/-- `x0` reads as zero and a write to it changes nothing; every other register reads what was written to it, cut to XLEN
bits (10_state.md R40). -/
def Obligations.RegisterZeroIsHardWired : Prop :=
  ∀ (s : State) (v : Word), s.rx 0 = 0 ∧ s.wx 0 v = s ∧ ∀ r, r ≠ 0 → (s.wx r v).rx r = s.cfg.norm v

/-! ### Encoding -/

/-- Decoding an encoded instruction gives it back, for every instruction a configuration has, with every operand at
every value (30_encoding.md). -/
def Obligations.EncodedInstructionsDecode : Prop :=
  ∀ (c : Config) (i : Instr), i.wf c = true → decode c (encode i) = .ok i

/-- Encoding a decoded instruction gives its bits back, and only instructions the configuration has are decoded: no bit
of an encoding is dropped, and no two encodings are one instruction (30_encoding.md R190). The first bits of an encoding
give its length (30_encoding.md R150). -/
def Obligations.DecodedInstructionsEncode : Prop :=
  (∀ (c : Config) (code : Code) (i : Instr), decode c code = .ok i → encode i = code ∧ i.wf c = true) ∧
  (∀ (c : Config) (i : Instr), i.wf c = true →
     match encode i with
     | .half w => w.extractLsb' 0 2 ≠ 3#2
     | .word w => w.extractLsb' 0 2 = 3#2 ∧ w.extractLsb' 2 3 ≠ 7#3)

/-- Some words of the spec's examples decode to the instruction they stand for: of 32 bits the formats R, I, S, B, U and
J, shifts, CSR, fence, atomic, OP-FP and R4 (30_encoding.md R151 to R167), of 16 bits CR, CI, CSS, CIW, CL, CS, CA, CB
and CJ (R170), and words of Zcb, Zcmp and Zcmt. -/
def Obligations.WrittenWordsDecode : Prop :=
  (∀ p ∈ ([(0x407302B3, .sub 5 6 7), (0xFFF30293, .addi 5 6 0xFFF), (0xFE731F23, .sh 6 7 0xFFE), (0xFE628EE3, .beq 5 6 0xFFE),
      (0x123452B7, .lui 5 0x12345), (0xFF9FF06F, .jal 0 0xFFFFC), (0x40435293, .srai 5 6 4), (0x340312F3, .csrrw 5 6 0x340),
      (0x0330000F, .fence 0 3 3 0 0), (0x160322AF, .lr_w true true 5 6), (0x007372D3, .fadd_s 5 6 7 7),
      (0x427372C3, .fmadd_d 5 6 7 8 7)] : List (BitVec 32 × Instr)), decode .default (.word p.1) = .ok p.2) ∧
  (∀ p ∈ ([(0x952E, .c_add 10 11), (0x557D, .c_li 10 63), (0xC22E, .c_swsp 11 1), (0x0808, .c_addi4spn 2 4),
      (0x4144, .c_lw 1 2 1), (0xC144, .c_sw 2 1 1), (0x8D0D, .c_sub 2 3), (0xCD7D, .c_beqz 2 127), (0xBFF5, .c_j 2046),
      (0x81A8, .c_lbu 2 3 2), (0x8DA8, .c_sh 3 2 1), (0x9D4D, .c_mul 2 3)] : List (BitVec 16 × Instr)),
    decode .default (.half p.1) = .ok p.2) ∧
  decode .rv64Zc (.half 0xB862#16) = .ok (.cm_push 6 0) ∧ decode .rv64Zc (.half 0xAD3E#16) = .ok (.cm_mvsa01 2 7) ∧
  decode .rv64Zc (.half 0xA082#16) = .ok (.cm_jalt 32)

/-! ### Floating point -/

/-- Single (44_fd.md R410 to R418), double (R434 to R442) and half precision arithmetic (47_zfh.md R622 to R630)
completes with the unit on and a rounding mode: `f[rd]` holds the result boxed, the flags are ORed into `fflags`,
`mstatus.FS` is 3, and nothing else changes. What the result is, other statements say. -/
def Obligations.FloatArithmeticCompletes : Prop :=
  (∀ (s : State) (rd rs1 rs2 rs3 : Reg) (rm : BitVec 3) (mode : RMode), s.csr.mstatus.fs ≠ 0 → s.roundingMode rm = some mode →
     ComputesF (.fmadd_s rd rs1 rs2 rs3 rm) s .s rd (fpMadd .s mode (s.fv .s rs1) (s.fv .s rs2) (s.fv .s rs3)) ∧
     ComputesF (.fmsub_s rd rs1 rs2 rs3 rm) s .s rd (fpMsub .s mode (s.fv .s rs1) (s.fv .s rs2) (s.fv .s rs3)) ∧
     ComputesF (.fnmsub_s rd rs1 rs2 rs3 rm) s .s rd (fpNmsub .s mode (s.fv .s rs1) (s.fv .s rs2) (s.fv .s rs3)) ∧
     ComputesF (.fnmadd_s rd rs1 rs2 rs3 rm) s .s rd (fpNmadd .s mode (s.fv .s rs1) (s.fv .s rs2) (s.fv .s rs3)) ∧
     ComputesF (.fadd_s rd rs1 rs2 rm) s .s rd (fpAdd .s mode (s.fv .s rs1) (s.fv .s rs2)) ∧
     ComputesF (.fsub_s rd rs1 rs2 rm) s .s rd (fpSub .s mode (s.fv .s rs1) (s.fv .s rs2)) ∧
     ComputesF (.fmul_s rd rs1 rs2 rm) s .s rd (fpMul .s mode (s.fv .s rs1) (s.fv .s rs2)) ∧
     ComputesF (.fdiv_s rd rs1 rs2 rm) s .s rd (fpDiv .s mode (s.fv .s rs1) (s.fv .s rs2)) ∧
     ComputesF (.fsqrt_s rd rs1 rm) s .s rd (fpSqrt .s mode (s.fv .s rs1))) ∧
  (∀ (s : State) (rd rs1 rs2 rs3 : Reg) (rm : BitVec 3) (mode : RMode), s.csr.mstatus.fs ≠ 0 → s.roundingMode rm = some mode →
     ComputesF (.fmadd_d rd rs1 rs2 rs3 rm) s .d rd (fpMadd .d mode (s.fv .d rs1) (s.fv .d rs2) (s.fv .d rs3)) ∧
     ComputesF (.fmsub_d rd rs1 rs2 rs3 rm) s .d rd (fpMsub .d mode (s.fv .d rs1) (s.fv .d rs2) (s.fv .d rs3)) ∧
     ComputesF (.fnmsub_d rd rs1 rs2 rs3 rm) s .d rd (fpNmsub .d mode (s.fv .d rs1) (s.fv .d rs2) (s.fv .d rs3)) ∧
     ComputesF (.fnmadd_d rd rs1 rs2 rs3 rm) s .d rd (fpNmadd .d mode (s.fv .d rs1) (s.fv .d rs2) (s.fv .d rs3)) ∧
     ComputesF (.fadd_d rd rs1 rs2 rm) s .d rd (fpAdd .d mode (s.fv .d rs1) (s.fv .d rs2)) ∧
     ComputesF (.fsub_d rd rs1 rs2 rm) s .d rd (fpSub .d mode (s.fv .d rs1) (s.fv .d rs2)) ∧
     ComputesF (.fmul_d rd rs1 rs2 rm) s .d rd (fpMul .d mode (s.fv .d rs1) (s.fv .d rs2)) ∧
     ComputesF (.fdiv_d rd rs1 rs2 rm) s .d rd (fpDiv .d mode (s.fv .d rs1) (s.fv .d rs2)) ∧
     ComputesF (.fsqrt_d rd rs1 rm) s .d rd (fpSqrt .d mode (s.fv .d rs1))) ∧
  (∀ (s : State) (rd rs1 rs2 rs3 : Reg) (rm : BitVec 3) (mode : RMode), s.csr.mstatus.fs ≠ 0 → s.roundingMode rm = some mode →
     ComputesF (.fmadd_h rd rs1 rs2 rs3 rm) s .h rd (fpMadd .h mode (s.fv .h rs1) (s.fv .h rs2) (s.fv .h rs3)) ∧
     ComputesF (.fmsub_h rd rs1 rs2 rs3 rm) s .h rd (fpMsub .h mode (s.fv .h rs1) (s.fv .h rs2) (s.fv .h rs3)) ∧
     ComputesF (.fnmsub_h rd rs1 rs2 rs3 rm) s .h rd (fpNmsub .h mode (s.fv .h rs1) (s.fv .h rs2) (s.fv .h rs3)) ∧
     ComputesF (.fnmadd_h rd rs1 rs2 rs3 rm) s .h rd (fpNmadd .h mode (s.fv .h rs1) (s.fv .h rs2) (s.fv .h rs3)) ∧
     ComputesF (.fadd_h rd rs1 rs2 rm) s .h rd (fpAdd .h mode (s.fv .h rs1) (s.fv .h rs2)) ∧
     ComputesF (.fsub_h rd rs1 rs2 rm) s .h rd (fpSub .h mode (s.fv .h rs1) (s.fv .h rs2)) ∧
     ComputesF (.fmul_h rd rs1 rs2 rm) s .h rd (fpMul .h mode (s.fv .h rs1) (s.fv .h rs2)) ∧
     ComputesF (.fdiv_h rd rs1 rs2 rm) s .h rd (fpDiv .h mode (s.fv .h rs1) (s.fv .h rs2)) ∧
     ComputesF (.fsqrt_h rd rs1 rm) s .h rd (fpSqrt .h mode (s.fv .h rs1)))

/-- A floating-point number converted to an integer (44_fd.md R399 and the rules of the twelve conversions) is rounded
in the mode and saturated; a NaN gives the greatest value; NV says saturated, NX inexact, never both. The result goes to
`x[rd]` sign-extended from the width of its type; only its flags go to `fflags`. -/
def Obligations.FloatToIntegerConversionsRoundAndSaturate : Prop :=
  (∀ (s : State) (rd rs1 : Reg) (rm : BitVec 3) (mode : RMode), s.csr.mstatus.fs ≠ 0 → s.roundingMode rm = some mode →
     ComputesFX (.fcvt_w_s rd rs1 rm) s rd (fpToInt .s .w mode (s.fv .s rs1)) ∧
     ComputesFX (.fcvt_wu_s rd rs1 rm) s rd (fpToInt .s .wu mode (s.fv .s rs1)) ∧
     ComputesFX (.fcvt_l_s rd rs1 rm) s rd (fpToInt .s .l mode (s.fv .s rs1)) ∧
     ComputesFX (.fcvt_lu_s rd rs1 rm) s rd (fpToInt .s .lu mode (s.fv .s rs1)) ∧
     ComputesFX (.fcvt_w_d rd rs1 rm) s rd (fpToInt .d .w mode (s.fv .d rs1)) ∧
     ComputesFX (.fcvt_wu_d rd rs1 rm) s rd (fpToInt .d .wu mode (s.fv .d rs1)) ∧
     ComputesFX (.fcvt_l_d rd rs1 rm) s rd (fpToInt .d .l mode (s.fv .d rs1)) ∧
     ComputesFX (.fcvt_lu_d rd rs1 rm) s rd (fpToInt .d .lu mode (s.fv .d rs1)) ∧
     ComputesFX (.fcvt_w_h rd rs1 rm) s rd (fpToInt .h .w mode (s.fv .h rs1)) ∧
     ComputesFX (.fcvt_wu_h rd rs1 rm) s rd (fpToInt .h .wu mode (s.fv .h rs1)) ∧
     ComputesFX (.fcvt_l_h rd rs1 rm) s rd (fpToInt .h .l mode (s.fv .h rs1)) ∧
     ComputesFX (.fcvt_lu_h rd rs1 rm) s rd (fpToInt .h .lu mode (s.fv .h rs1))) ∧
  (∀ (f : Fmt) (t : IntTy) (mode : RMode) (a : Word),
     ((f.val a).isNan = true → fpToInt f t mode a = (t.reg t.hi, flagNV)) ∧
     (∀ sign, f.val a = .inf sign → fpToInt f t mode a = (t.reg (if sign then t.lo else t.hi), flagNV)) ∧
     ∀ x, f.num a = some x →
       ∃ i : Int, NearestInt mode x i ∧
         fpToInt f t mode a =
           if t.hi < i then (t.reg t.hi, flagNV) else if i < t.lo then (t.reg t.lo, flagNV)
           else (t.reg i, if (i : ℚ) = x then 0 else flagNX)) ∧
  (∀ i : Int,
     IntTy.w.reg i = word32 i ∧ IntTy.wu.reg i = word32 i ∧ IntTy.l.reg i = BitVec.ofInt 64 i ∧
     IntTy.lu.reg i = BitVec.ofInt 64 i) ∧
  ([IntTy.w, .wu, .l, .lu].map (fun t => (t.lo, t.hi)) =
     [(-2 ^ 31, 2 ^ 31 - 1), (0, 2 ^ 32 - 1), (-2 ^ 63, 2 ^ 63 - 1), (0, 2 ^ 64 - 1)])

/-- An integer, or a number of another format, converted to a format (44_fd.md R402, R405, R431, R432, R448, R449, R456,
R457, R464, R465, R469, R470; 47_zfh.md R636 to R639, R650, R651, R657, R658). -/
def Obligations.ConversionsToFloatComplete : Prop :=
  ∀ (s : State) (rd rs1 : Reg) (rm : BitVec 3) (mode : RMode), s.csr.mstatus.fs ≠ 0 → s.roundingMode rm = some mode →
    ComputesF (.fcvt_s_w rd rs1 rm) s .s rd (fpOfInt .s mode ((s.xu rs1 : Int).bmod (2 ^ 32))) ∧
    ComputesF (.fcvt_s_wu rd rs1 rm) s .s rd (fpOfInt .s mode (s.xu rs1 % 2 ^ 32 : Nat)) ∧
    ComputesF (.fcvt_d_w rd rs1 rm) s .d rd (fpOfInt .d mode ((s.xu rs1 : Int).bmod (2 ^ 32))) ∧
    ComputesF (.fcvt_d_wu rd rs1 rm) s .d rd (fpOfInt .d mode (s.xu rs1 % 2 ^ 32 : Nat)) ∧
    ComputesF (.fcvt_h_w rd rs1 rm) s .h rd (fpOfInt .h mode ((s.xu rs1 : Int).bmod (2 ^ 32))) ∧
    ComputesF (.fcvt_h_wu rd rs1 rm) s .h rd (fpOfInt .h mode (s.xu rs1 % 2 ^ 32 : Nat)) ∧
    (s.cfg.xlen = .rv64 →
      ComputesF (.fcvt_s_l rd rs1 rm) s .s rd (fpOfInt .s mode (s.xs rs1)) ∧
      ComputesF (.fcvt_s_lu rd rs1 rm) s .s rd (fpOfInt .s mode (s.xu rs1)) ∧
      ComputesF (.fcvt_d_l rd rs1 rm) s .d rd (fpOfInt .d mode (s.xs rs1)) ∧
      ComputesF (.fcvt_d_lu rd rs1 rm) s .d rd (fpOfInt .d mode (s.xu rs1)) ∧
      ComputesF (.fcvt_h_l rd rs1 rm) s .h rd (fpOfInt .h mode (s.xs rs1)) ∧
      ComputesF (.fcvt_h_lu rd rs1 rm) s .h rd (fpOfInt .h mode (s.xu rs1))) ∧
    ComputesF (.fcvt_s_d rd rs1 rm) s .s rd (fpConvert .d .s mode (s.fv .d rs1)) ∧
    ComputesF (.fcvt_d_s rd rs1 rm) s .d rd (fpConvert .s .d mode (s.fv .s rs1)) ∧
    ComputesF (.fcvt_s_h rd rs1 rm) s .s rd (fpConvert .h .s mode (s.fv .h rs1)) ∧
    ComputesF (.fcvt_h_s rd rs1 rm) s .h rd (fpConvert .s .h mode (s.fv .s rs1)) ∧
    ComputesF (.fcvt_d_h rd rs1 rm) s .d rd (fpConvert .h .d mode (s.fv .h rs1)) ∧
    ComputesF (.fcvt_h_d rd rs1 rm) s .h rd (fpConvert .d .h mode (s.fv .d rs1))

/-- Sign injection, minimum and maximum, and the moves from an integer register (44_fd.md R398, R403, R419 to R423,
R433, R443 to R447, R471; 47_zfh.md R631 to R635, R652) complete with the unit on, with no rounding mode. Minimum and
maximum follow the order of the extended numbers, -0 below +0; a NaN is passed over, and NV says that one is signaling
(R398). Sign injection keeps every bit but the sign (R403). -/
def Obligations.SignInjectionMinMaxAndMovesComplete : Prop :=
  (∀ (s : State) (rd rs1 rs2 : Reg), s.csr.mstatus.fs ≠ 0 →
     ComputesF (.fsgnj_s rd rs1 rs2) s .s rd (fpSgnj .s (s.fv .s rs1) (s.fv .s rs2), 0) ∧
     ComputesF (.fsgnjn_s rd rs1 rs2) s .s rd (fpSgnjn .s (s.fv .s rs1) (s.fv .s rs2), 0) ∧
     ComputesF (.fsgnjx_s rd rs1 rs2) s .s rd (fpSgnjx .s (s.fv .s rs1) (s.fv .s rs2), 0) ∧
     ComputesF (.fmin_s rd rs1 rs2) s .s rd (fpMin .s (s.fv .s rs1) (s.fv .s rs2)) ∧
     ComputesF (.fmax_s rd rs1 rs2) s .s rd (fpMax .s (s.fv .s rs1) (s.fv .s rs2)) ∧
     ComputesF (.fsgnj_d rd rs1 rs2) s .d rd (fpSgnj .d (s.fv .d rs1) (s.fv .d rs2), 0) ∧
     ComputesF (.fsgnjn_d rd rs1 rs2) s .d rd (fpSgnjn .d (s.fv .d rs1) (s.fv .d rs2), 0) ∧
     ComputesF (.fsgnjx_d rd rs1 rs2) s .d rd (fpSgnjx .d (s.fv .d rs1) (s.fv .d rs2), 0) ∧
     ComputesF (.fmin_d rd rs1 rs2) s .d rd (fpMin .d (s.fv .d rs1) (s.fv .d rs2)) ∧
     ComputesF (.fmax_d rd rs1 rs2) s .d rd (fpMax .d (s.fv .d rs1) (s.fv .d rs2)) ∧
     ComputesF (.fsgnj_h rd rs1 rs2) s .h rd (fpSgnj .h (s.fv .h rs1) (s.fv .h rs2), 0) ∧
     ComputesF (.fsgnjn_h rd rs1 rs2) s .h rd (fpSgnjn .h (s.fv .h rs1) (s.fv .h rs2), 0) ∧
     ComputesF (.fsgnjx_h rd rs1 rs2) s .h rd (fpSgnjx .h (s.fv .h rs1) (s.fv .h rs2), 0) ∧
     ComputesF (.fmin_h rd rs1 rs2) s .h rd (fpMin .h (s.fv .h rs1) (s.fv .h rs2)) ∧
     ComputesF (.fmax_h rd rs1 rs2) s .h rd (fpMax .h (s.fv .h rs1) (s.fv .h rs2)) ∧
     ComputesF (.fmv_w_x rd rs1) s .s rd (s.rx rs1 &&& 0xFFFFFFFF#64, 0) ∧
     ComputesF (.fmv_h_x rd rs1) s .h rd (s.rx rs1 &&& 0xFFFF#64, 0) ∧
     ComputesF (.fmv_d_x rd rs1) s .d rd (s.rx rs1, 0)) ∧
  (∀ (f : Fmt) (a b : Word),
     (fpMin f a b).2 = (if anySignaling f a b then flagNV else 0) ∧ (fpMax f a b).2 = (fpMin f a b).2 ∧
     ((f.val a).isNan = true → (f.val b).isNan = true → (fpMin f a b).1 = f.nan ∧ (fpMax f a b).1 = f.nan) ∧
     ((f.val a).isNan = true → (f.val b).isNan = false → (fpMin f a b).1 = b ∧ (fpMax f a b).1 = b) ∧
     ((f.val a).isNan = false → (f.val b).isNan = true → (fpMin f a b).1 = a ∧ (fpMax f a b).1 = a) ∧
     (f.num a = some 0 → f.num b = some 0 → f.sign a = true → f.sign b = false →
       (fpMin f a b).1 = a ∧ (fpMax f a b).1 = b ∧ (fpMin f b a).1 = a ∧ (fpMax f b a).1 = b) ∧
     ∀ x y, f.order a = some x → f.order b = some y →
       ((fpMin f a b).1 = a ∨ (fpMin f a b).1 = b) ∧ ((fpMax f a b).1 = a ∨ (fpMax f a b).1 = b) ∧
       (x < y → (fpMin f a b).1 = a ∧ (fpMax f a b).1 = b) ∧ (y < x → (fpMin f a b).1 = b ∧ (fpMax f a b).1 = a)) ∧
  (∀ (f : Fmt) (a b : Word),
     (∀ v ∈ [fpSgnj f a b, fpSgnjn f a b, fpSgnjx f a b], f.mag v = f.mag a) ∧
     f.sign (fpSgnj f a b) = f.sign b ∧ f.sign (fpSgnjn f a b) = !f.sign b ∧
     f.sign (fpSgnjx f a b) = (f.sign a ^^ f.sign b))

/-- Comparisons, classification and the moves to an integer register (44_fd.md R400, R401, R426 to R430, R450 to R453,
R468; 47_zfh.md R643 to R646, R649) complete with the unit on; the moves copy the low bits without a box check. A NaN
compares false; both zeros are equal and infinities compare as extended reals; the NV flag of `flt` and `fle` on a quiet
NaN is FLT_FLE_SIGNALING's (R400). Classification sets exactly the bit of the Classify Table (R401). -/
def Obligations.ComparisonsAndMovesToIntegersComplete : Prop :=
  (∀ (s : State) (rd rs1 rs2 : Reg), s.csr.mstatus.fs ≠ 0 →
     ComputesFX (.feq_s rd rs1 rs2) s rd (fpEq .s (s.fv .s rs1) (s.fv .s rs2)) ∧
     ComputesFX (.flt_s rd rs1 rs2) s rd (fpLt s.cfg .s (s.fv .s rs1) (s.fv .s rs2)) ∧
     ComputesFX (.fle_s rd rs1 rs2) s rd (fpLe s.cfg .s (s.fv .s rs1) (s.fv .s rs2)) ∧
     ComputesFX (.fclass_s rd rs1) s rd (fpClass .s (s.fv .s rs1), 0) ∧
     ComputesFX (.feq_d rd rs1 rs2) s rd (fpEq .d (s.fv .d rs1) (s.fv .d rs2)) ∧
     ComputesFX (.flt_d rd rs1 rs2) s rd (fpLt s.cfg .d (s.fv .d rs1) (s.fv .d rs2)) ∧
     ComputesFX (.fle_d rd rs1 rs2) s rd (fpLe s.cfg .d (s.fv .d rs1) (s.fv .d rs2)) ∧
     ComputesFX (.fclass_d rd rs1) s rd (fpClass .d (s.fv .d rs1), 0) ∧
     ComputesFX (.feq_h rd rs1 rs2) s rd (fpEq .h (s.fv .h rs1) (s.fv .h rs2)) ∧
     ComputesFX (.flt_h rd rs1 rs2) s rd (fpLt s.cfg .h (s.fv .h rs1) (s.fv .h rs2)) ∧
     ComputesFX (.fle_h rd rs1 rs2) s rd (fpLe s.cfg .h (s.fv .h rs1) (s.fv .h rs2)) ∧
     ComputesFX (.fclass_h rd rs1) s rd (fpClass .h (s.fv .h rs1), 0) ∧
     ComputesFX (.fmv_x_w rd rs1) s rd (word32 (s.rf rs1).toNat, 0) ∧
     ComputesFX (.fmv_x_h rd rs1) s rd (BitVec.ofInt 64 (((s.rf rs1).toNat : Int).bmod (2 ^ 16)), 0) ∧
     ComputesFX (.fmv_x_d rd rs1) s rd (s.rf rs1, 0)) ∧
  (∀ (c : Config) (f : Fmt) (a b : Word),
     (anyNan f a b = ((f.order a).isNone || (f.order b).isNone)) ∧
     (anyNan f a b = true →
       (fpEq f a b).1 = 0 ∧ (fpLt c f a b).1 = 0 ∧ (fpLe c f a b).1 = 0 ∧
       (fpEq f a b).2 = (if anySignaling f a b then flagNV else 0) ∧
       (fpLt c f a b).2 = (if c.fltFleSignaling || anySignaling f a b then flagNV else 0) ∧
       (fpLe c f a b).2 = (fpLt c f a b).2) ∧
     ∀ x y, f.order a = some x → f.order b = some y →
       fpEq f a b = (if x = y then 1 else 0, 0) ∧ fpLt c f a b = (if x < y then 1 else 0, 0) ∧
       fpLe c f a b = (if x ≤ y then 1 else 0, 0)) ∧
  (∀ (f : Fmt) (a : Word),
     ∃ k < 10, fpClass f a = 1#64 <<< k ∧
       (k = 9 ∨ k = 8 ↔ (f.val a).isNan = true) ∧ (k = 8 ↔ (f.val a).isSignaling = true) ∧
       (k = 0 ↔ f.val a = .inf true) ∧ (k = 7 ↔ f.val a = .inf false) ∧
       (k = 3 ∨ k = 4 ↔ f.num a = some 0) ∧ (k = 3 ↔ f.num a = some 0 ∧ f.sign a = true) ∧
       (k = 1 ∨ k = 2 ↔ ∃ x, f.num a = some x ∧ x < 0) ∧ (k = 5 ∨ k = 6 ↔ ∃ x, f.num a = some x ∧ 0 < x) ∧
       (k = 2 ∨ k = 5 ↔ ∃ x, f.num a = some x ∧ x ≠ 0 ∧ |x| < 2 ^ f.emin))

/-- A register narrower than FLEN is read through its box (10_state.md R48): the low bits if all bits above them are
ones, else the canonical NaN; a value written boxed is read back. -/
def Obligations.NarrowValuesAreBoxed : Prop :=
  ∀ (s : State) (f : Fmt) (r : Reg) (v : Word), (f = .d → s.cfg.extD = true) → v.toNat < 2 ^ f.width →
    (s.rf r = s.cfg.fnorm (box f v) → s.fv f r = v) ∧
    ((∃ k, f.width ≤ k ∧ k < (if s.cfg.extD then 64 else 32) ∧ (s.rf r).getLsbD k = false) → s.fv f r = f.nan)

/-- The exact results (44_fd.md R392, R397): for operands that are numbers, an addition, subtraction, multiplication,
fused multiply-add, integer conversion or change of format gives the exact result rounded once, with the flags and the
overflow of R392. An exact zero has the sign of its terms where they agree; a sum of opposite signs is -0 only when
rounding down; a product has the exclusive or of the signs. -/
def Obligations.ExactResultsAreRoundedOnce : Prop :=
  ∀ (f g : Fmt) (mode : RMode) (a b c : Word) (x y z : ℚ) (i : Int),
    f.num a = some x → f.num b = some y → f.num c = some z →
    let sum := fun s t : Bool => if s = t then s else decide (mode = .rdn)
    let sa := f.sign a
    let sb := f.sign b
    let sc := f.sign c
    (RoundsTo f mode (x + y : ℚ) (fpAdd f mode a b) ∧
     RoundsTo f mode (x - y : ℚ) (fpSub f mode a b) ∧
     RoundsTo f mode (x * y : ℚ) (fpMul f mode a b) ∧
     RoundsTo f mode (x * y + z : ℚ) (fpMadd f mode a b c) ∧
     RoundsTo f mode (x * y - z : ℚ) (fpMsub f mode a b c) ∧
     RoundsTo f mode (-(x * y) + z : ℚ) (fpNmsub f mode a b c) ∧
     RoundsTo f mode (-(x * y) - z : ℚ) (fpNmadd f mode a b c) ∧
     RoundsTo f mode (i : ℚ) (fpOfInt f mode i) ∧
     RoundsTo g mode x (fpConvert f g mode a)) ∧
    (x + y = 0 → f.sign (fpAdd f mode a b).1 = sum sa sb) ∧
    (x - y = 0 → f.sign (fpSub f mode a b).1 = sum sa (!sb)) ∧
    (x * y = 0 → f.sign (fpMul f mode a b).1 = (sa ^^ sb)) ∧
    (x * y + z = 0 → f.sign (fpMadd f mode a b c).1 = sum (sa ^^ sb) sc) ∧
    (x * y - z = 0 → f.sign (fpMsub f mode a b c).1 = sum (sa ^^ sb) (!sc)) ∧
    (-(x * y) + z = 0 → f.sign (fpNmsub f mode a b c).1 = sum (!(sa ^^ sb)) sc) ∧
    (-(x * y) - z = 0 → f.sign (fpNmadd f mode a b c).1 = sum (!(sa ^^ sb)) (!sc)) ∧
    f.sign (fpOfInt f mode 0).1 = false ∧
    (x = 0 → g.sign (fpConvert f g mode a).1 = sa)

/-- Quotients and square roots, whose exact values need not be finite binary fractions, are rounded once too, with the
flags and the overflow of 44_fd.md R392. A zero quotient has the exclusive or of the signs, and the square root of a
zero is that zero. -/
def Obligations.QuotientsAndRootsAreRoundedOnce : Prop :=
  ∀ (f : Fmt) (mode : RMode) (a b : Word) (x y : ℚ), f.num a = some x → f.num b = some y →
    (y ≠ 0 → RoundsTo f mode (x / y : ℚ) (fpDiv f mode a b) ∧
      (x = 0 → f.sign (fpDiv f mode a b).1 = (f.sign a ^^ f.sign b))) ∧
    (0 ≤ x → RoundsTo f mode (Real.sqrt x) (fpSqrt f mode a) ∧ (x = 0 → f.sign (fpSqrt f mode a).1 = f.sign a))

/-- The operations with no numeric result (44_fd.md R392, R393, R397): an invalid operation gives the canonical NaN and
NV; a quiet NaN alone gives the canonical NaN and no flag; a finite number that is not zero divided by zero gives an
infinity of the combined sign and DZ; a number and an infinity add up to the infinity. So do the fused forms with their
product and its sign, the square root and the conversions between formats. The flags have the bits of 10_state.md R49,
and the NaN and the infinities those of R393. -/
def Obligations.SpecialOperandsGiveSpecialResults : Prop :=
  (∀ (f : Fmt) (mode : RMode) (a b : Word) (sa sb : Bool) (m n : Nat) (e k : Int),
    (anySignaling f a b = true →
      ∀ op ∈ [fpAdd, fpSub, fpMul, fpDiv], op f mode a b = (f.nan, flagNV)) ∧
    (anyNan f a b = true → anySignaling f a b = false →
      ∀ op ∈ [fpAdd, fpSub, fpMul, fpDiv], op f mode a b = (f.nan, 0)) ∧
    (f.val a = .inf sa → f.val b = .inf sb →
      fpAdd f mode a b = (if sa = sb then (f.inf sa, 0) else (f.nan, flagNV)) ∧
      fpSub f mode a b = (if sa = sb then (f.nan, flagNV) else (f.inf sa, 0)) ∧
      fpMul f mode a b = (f.inf (sa ^^ sb), 0) ∧ fpDiv f mode a b = (f.nan, flagNV)) ∧
    (f.val a = .inf sa → f.val b = .fin sb n k →
      fpAdd f mode a b = (f.inf sa, 0) ∧ fpSub f mode a b = (f.inf sa, 0) ∧
      fpAdd f mode b a = (f.inf sa, 0) ∧ fpSub f mode b a = (f.inf (!sa), 0) ∧
      fpMul f mode a b = (if n = 0 then (f.nan, flagNV) else (f.inf (sa ^^ sb), 0)) ∧
      fpMul f mode b a = fpMul f mode a b ∧
      fpDiv f mode a b = (f.inf (sa ^^ sb), 0) ∧ fpDiv f mode b a = (f.zero (sa ^^ sb), 0)) ∧
    (f.val a = .fin sa m e → f.val b = .fin sb 0 k →
      fpDiv f mode a b = (if m = 0 then (f.nan, flagNV) else (f.inf (sa ^^ sb), flagDZ))) ∧
    (f.val a = .fin true m e → m ≠ 0 → fpSqrt f mode a = (f.nan, flagNV)) ∧
    (f.val a = .inf sa → fpSqrt f mode a = (if sa then (f.nan, flagNV) else (f.inf false, 0))) ∧
    ((f.val a).isNan = true → fpSqrt f mode a = (f.nan, if (f.val a).isSignaling then flagNV else 0)) ∧
    (∀ g : Fmt, ((f.val a).isNan = true → fpConvert f g mode a = (g.nan, if (f.val a).isSignaling then flagNV else 0)) ∧
      (f.val a = .inf sa → fpConvert f g mode a = (g.inf sa, 0)))) ∧
  (∀ (f : Fmt) (mode : RMode) (a b c : Word) (sa sb sc : Bool) (n l : Nat) (k q : Int),
    ∀ form ∈ [(fpMadd, false, false), (fpMsub, false, true), (fpNmsub, true, false), (fpNmadd, true, true)],
      let op := form.1 f mode
      let sp := (sa ^^ sb) ^^ form.2.1
      let st := sc ^^ form.2.2
      (anySignaling f a b = true ∨ (f.val c).isSignaling = true → op a b c = (f.nan, flagNV)) ∧
      (f.val a = .inf sa → f.val b = .fin sb 0 k → op a b c = (f.nan, flagNV) ∧ op b a c = (f.nan, flagNV)) ∧
      (anySignaling f a b = false → (f.val c).isSignaling = false →
        (anyNan f a b = true → op a b c = (f.nan, 0)) ∧
        ((f.val c).isNan = true → f.num a ≠ none → f.num b ≠ none → op a b c = (f.nan, 0)) ∧
        (f.val a = .inf sa → f.val b = .inf sb ∨ f.val b = .fin sb n k ∧ n ≠ 0 →
          ((f.val c).isNan = true → op a b c = (f.nan, 0) ∧ op b a c = (f.nan, 0)) ∧
          (f.val c = .fin sc l q → op a b c = (f.inf sp, 0) ∧ op b a c = (f.inf sp, 0)) ∧
          (f.val c = .inf sc →
            op a b c = (if sp = st then (f.inf sp, 0) else (f.nan, flagNV)) ∧ op b a c = op a b c)) ∧
        (f.num a ≠ none → f.num b ≠ none → f.val c = .inf sc → op a b c = (f.inf st, 0)))) ∧
  ([flagNV, flagDZ, flagOF, flagUF, flagNX].map BitVec.toNat = [16, 8, 4, 2, 1] ∧
   [Fmt.h, .s, .d].map (fun f => (f.nan.toNat, (f.inf false).toNat, (f.inf true).toNat)) =
     [(0x7E00, 0x7C00, 0xFC00), (0x7FC00000, 0x7F800000, 0xFF800000),
       (0x7FF8000000000000, 0x7FF0000000000000, 0xFFF0000000000000)] ∧
   ∀ (f : Fmt) (sign : Bool), f.num (f.zero sign) = some 0 ∧ f.sign (f.zero sign) = sign)

/-- Every floating-point instruction with the unit off, and every one with an `rm` field that has no rounding mode,
raises IllegalInstruction with its bits for trap value and changes nothing else (44_fd.md R391, R395; 60_exceptions.md
R723 (d), (e)): arithmetic, conversions, sign injection, comparisons, moves, loads and stores, the compressed ones too.
The modes are those of R391; 5 and 6 name none, nor does 7 with a reserved `frm`. `fcvt.q.h` and `fcvt.h.q` always raise
IllegalInstruction: there is no quad register (47_zfh.md R640 to R642). -/
def Obligations.IllegalFloatInstructionsTrap : Prop :=
  (∀ s : State,
     (∀ i, isFloatWithoutMode i = true → s.csr.mstatus.fs = 0 → Traps i s .illegalInstruction (encode i).bits) ∧
     (∀ i rm, rmOf i = some rm → s.csr.mstatus.fs = 0 ∨ s.roundingMode rm = none →
       Traps i s .illegalInstruction (encode i).bits) ∧
     (∀ rm : BitVec 3, rm ≠ 7 →
       s.roundingMode rm = [RMode.rne, .rtz, .rdn, .rup, .rmm][rm.toNat]?) ∧
     s.roundingMode 7 = [RMode.rne, .rtz, .rdn, .rup, .rmm][s.frm.toNat]?) ∧
  (∀ (s : State) (rd rs1 : Reg) (rm : BitVec 3),
     Traps (.fcvt_q_h rd rs1 rm) s .illegalInstruction (encode (.fcvt_q_h rd rs1 rm)).bits ∧
     Traps (.fcvt_h_q rd rs1 rm) s .illegalInstruction (encode (.fcvt_h_q rd rs1 rm)).bits)

/-- Only a CSR instruction clears a floating-point flag; every other instruction leaves it set (10_state.md R49,
44_fd.md R394). -/
def Obligations.FlagsAreSticky : Prop :=
  ∀ (s : State) (i : Instr) (t : State), exec i s = .next t →
    (∀ rd rs1 a, i ≠ .csrrw rd rs1 a ∧ i ≠ .csrrs rd rs1 a ∧ i ≠ .csrrc rd rs1 a ∧
      i ≠ .csrrwi rd rs1 a ∧ i ≠ .csrrsi rd rs1 a ∧ i ≠ .csrrci rd rs1 a) →
    s.fflags &&& t.fflags = s.fflags ∧ t.frm = s.frm

/-! ### Pending interrupts and counters -/

/-- The bits of `mip`, and that an interrupt is pending when its bit is set there and in `mie` (10_state.md R61,
60_exceptions.md R731): MTIP is `mtime` >= `mtimecmp` of this hart and MSIP its `msip`, or both are inputs without a
CLINT; MEIP is an input, and SEIP its written bit or an input. After a step of an awake hart `mcycle` has advanced by a
positive amount unless `mcountinhibit.CY`, `mtime` by some amount, and nothing else (R80, R771); after one of a waiting
hart only `mtime`: the amounts are free draws (log 9). That `mcycle` stays while waiting (log 17), and that the CY the
instruction leaves decides for the instruction that writes it (log 15), is the model's choice. What the counter CSRs
read as, in halves on XLEN = 32; the numbered counters are zero (R80). -/
def Obligations.InterruptsPendAndCountersAdvance : Prop :=
  (∀ s : State,
     let mtip := match s.cfg.platform with
       | .clint => decide ((s.clint.get (.mtimecmp s.cfg.hartId .both)).toNat ≤ (s.clint.get (.mtime .both)).toNat)
       | .none => s.lines.mtip
     let msip := match s.cfg.platform with
       | .clint => s.clint.get (.msip s.cfg.hartId) == 1
       | .none => s.lines.msip
     (∀ k, s.mip.getLsbD k =
       if k = 1 then s.cfg.extS && s.csr.ssip
       else if k = 3 then msip
       else if k = 5 then s.cfg.extS && s.csr.stip
       else if k = 7 then mtip
       else if k = 9 then s.cfg.extS && (s.csr.seip || s.lines.seip)
       else if k = 11 then s.lines.meip
       else false) ∧
     (∀ k, s.pending.getLsbD k = (s.mip.getLsbD k && s.csr.mie.getLsbD k)) ∧ s.csrGet .mip = s.mip) ∧
  (∀ s : State,
     (∃ a b : Word,
       (if s.csr.mcountinhibit.getLsbD 0 = true then a = 0 else a ≠ 0) ∧
       s.tick =
         { s with
           csr := { s.csr with mcycle := s.csr.mcycle + a }, clint := { s.clint with mtime := s.clint.mtime + b }
           draws := s.draws + 1 }) ∧
     (∃ b : Word, s.tickWaiting = { s with clint := { s.clint with mtime := s.clint.mtime + b }, draws := s.draws + 1 })) ∧
  (∀ (s : State) (n : Nat),
     s.csrGet .cycle = s.csrGet .mcycle ∧ s.csrGet .instret = s.csrGet .minstret ∧
     (s.cfg.xlen = .rv64 →
       s.csrGet .mcycle = s.csr.mcycle ∧ s.csrGet .minstret = s.csr.minstret ∧ s.csrGet .time = s.clint.mtime) ∧
     (s.cfg.xlen = .rv32 →
       (s.csrGet .mcycle).toNat = s.csr.mcycle.toNat % 2 ^ 32 ∧ (s.csrGet .mcycleh).toNat = s.csr.mcycle.toNat / 2 ^ 32 ∧
       (s.csrGet .minstret).toNat = s.csr.minstret.toNat % 2 ^ 32 ∧
       (s.csrGet .minstreth).toNat = s.csr.minstret.toNat / 2 ^ 32 ∧
       (s.csrGet .time).toNat = s.clint.mtime.toNat % 2 ^ 32 ∧ (s.csrGet .timeh).toNat = s.clint.mtime.toNat / 2 ^ 32 ∧
       s.csrGet .cycleh = s.csrGet .mcycleh ∧ s.csrGet .instreth = s.csrGet .minstreth) ∧
     (∀ r ∈ [Csr.hpmcounter n, .hpmcounterh n, .mhpmcounter n, .mhpmcounterh n, .mhpmevent n],
       s.csrGet r = 0 ∧ ∀ v, s.csrPut r v = s))
end

