-- ==== Sys2Proof/Laws/State.lean ====
section
/-! SUPPORT. One lemma per field per update of the state, so that no proof unfolds a record update, and what a read of a
register gives after a write. -/

namespace Sys2Proof.Machine

open Sys2Proof

/-! ### `wx` -/

@[simp] theorem State.wx_cfg (s : State) (r : Reg) (v : Word) : (s.wx r v).cfg = s.cfg := by unfold State.wx; split <;> rfl
@[simp] theorem State.wx_pc (s : State) (r : Reg) (v : Word) : (s.wx r v).pc = s.pc := by unfold State.wx; split <;> rfl
@[simp] theorem State.wx_f (s : State) (r : Reg) (v : Word) : (s.wx r v).f = s.f := by unfold State.wx; split <;> rfl
@[simp] theorem State.wx_fflags (s : State) (r : Reg) (v : Word) : (s.wx r v).fflags = s.fflags := by unfold State.wx; split <;> rfl
@[simp] theorem State.wx_frm (s : State) (r : Reg) (v : Word) : (s.wx r v).frm = s.frm := by unfold State.wx; split <;> rfl
@[simp] theorem State.wx_priv (s : State) (r : Reg) (v : Word) : (s.wx r v).priv = s.priv := by unfold State.wx; split <;> rfl
@[simp] theorem State.wx_csr (s : State) (r : Reg) (v : Word) : (s.wx r v).csr = s.csr := by unfold State.wx; split <;> rfl
@[simp] theorem State.wx_resv (s : State) (r : Reg) (v : Word) : (s.wx r v).resv = s.resv := by unfold State.wx; split <;> rfl
@[simp] theorem State.wx_waiting (s : State) (r : Reg) (v : Word) : (s.wx r v).waiting = s.waiting := by unfold State.wx; split <;> rfl
@[simp] theorem State.wx_mem (s : State) (r : Reg) (v : Word) : (s.wx r v).mem = s.mem := by unfold State.wx; split <;> rfl
@[simp] theorem State.wx_clint (s : State) (r : Reg) (v : Word) : (s.wx r v).clint = s.clint := by unfold State.wx; split <;> rfl
@[simp] theorem State.wx_lines (s : State) (r : Reg) (v : Word) : (s.wx r v).lines = s.lines := by unfold State.wx; split <;> rfl
@[simp] theorem State.wx_env (s : State) (r : Reg) (v : Word) : (s.wx r v).env = s.env := by unfold State.wx; split <;> rfl
@[simp] theorem State.wx_draws (s : State) (r : Reg) (v : Word) : (s.wx r v).draws = s.draws := by unfold State.wx; split <;> rfl

/-! ### `wf` -/

@[simp] theorem State.wf_cfg (s : State) (r : Reg) (v : Word) : (s.wf r v).cfg = s.cfg := rfl
@[simp] theorem State.wf_x (s : State) (r : Reg) (v : Word) : (s.wf r v).x = s.x := rfl
@[simp] theorem State.wf_pc (s : State) (r : Reg) (v : Word) : (s.wf r v).pc = s.pc := rfl
@[simp] theorem State.wf_fflags (s : State) (r : Reg) (v : Word) : (s.wf r v).fflags = s.fflags := rfl
@[simp] theorem State.wf_frm (s : State) (r : Reg) (v : Word) : (s.wf r v).frm = s.frm := rfl
@[simp] theorem State.wf_priv (s : State) (r : Reg) (v : Word) : (s.wf r v).priv = s.priv := rfl
@[simp] theorem State.wf_resv (s : State) (r : Reg) (v : Word) : (s.wf r v).resv = s.resv := rfl
@[simp] theorem State.wf_waiting (s : State) (r : Reg) (v : Word) : (s.wf r v).waiting = s.waiting := rfl
@[simp] theorem State.wf_mem (s : State) (r : Reg) (v : Word) : (s.wf r v).mem = s.mem := rfl
@[simp] theorem State.wf_clint (s : State) (r : Reg) (v : Word) : (s.wf r v).clint = s.clint := rfl
@[simp] theorem State.wf_lines (s : State) (r : Reg) (v : Word) : (s.wf r v).lines = s.lines := rfl
@[simp] theorem State.wf_env (s : State) (r : Reg) (v : Word) : (s.wf r v).env = s.env := rfl
@[simp] theorem State.wf_draws (s : State) (r : Reg) (v : Word) : (s.wf r v).draws = s.draws := rfl
@[simp] theorem State.wf_csr_medeleg (s : State) (r : Reg) (v : Word) : (s.wf r v).csr.medeleg = s.csr.medeleg := rfl
@[simp] theorem State.wf_csr_mideleg (s : State) (r : Reg) (v : Word) : (s.wf r v).csr.mideleg = s.csr.mideleg := rfl
@[simp] theorem State.wf_csr_mie (s : State) (r : Reg) (v : Word) : (s.wf r v).csr.mie = s.csr.mie := rfl
@[simp] theorem State.wf_csr_ssip (s : State) (r : Reg) (v : Word) : (s.wf r v).csr.ssip = s.csr.ssip := rfl
@[simp] theorem State.wf_csr_stip (s : State) (r : Reg) (v : Word) : (s.wf r v).csr.stip = s.csr.stip := rfl
@[simp] theorem State.wf_csr_seip (s : State) (r : Reg) (v : Word) : (s.wf r v).csr.seip = s.csr.seip := rfl
@[simp] theorem State.wf_csr_mtvec (s : State) (r : Reg) (v : Word) : (s.wf r v).csr.mtvec = s.csr.mtvec := rfl
@[simp] theorem State.wf_csr_stvec (s : State) (r : Reg) (v : Word) : (s.wf r v).csr.stvec = s.csr.stvec := rfl
@[simp] theorem State.wf_csr_mscratch (s : State) (r : Reg) (v : Word) : (s.wf r v).csr.mscratch = s.csr.mscratch := rfl
@[simp] theorem State.wf_csr_sscratch (s : State) (r : Reg) (v : Word) : (s.wf r v).csr.sscratch = s.csr.sscratch := rfl
@[simp] theorem State.wf_csr_mepc (s : State) (r : Reg) (v : Word) : (s.wf r v).csr.mepc = s.csr.mepc := rfl
@[simp] theorem State.wf_csr_sepc (s : State) (r : Reg) (v : Word) : (s.wf r v).csr.sepc = s.csr.sepc := rfl
@[simp] theorem State.wf_csr_mcause (s : State) (r : Reg) (v : Word) : (s.wf r v).csr.mcause = s.csr.mcause := rfl
@[simp] theorem State.wf_csr_scause (s : State) (r : Reg) (v : Word) : (s.wf r v).csr.scause = s.csr.scause := rfl
@[simp] theorem State.wf_csr_mtval (s : State) (r : Reg) (v : Word) : (s.wf r v).csr.mtval = s.csr.mtval := rfl
@[simp] theorem State.wf_csr_stval (s : State) (r : Reg) (v : Word) : (s.wf r v).csr.stval = s.csr.stval := rfl
@[simp] theorem State.wf_csr_satp (s : State) (r : Reg) (v : Word) : (s.wf r v).csr.satp = s.csr.satp := rfl
@[simp] theorem State.wf_csr_mcounteren (s : State) (r : Reg) (v : Word) : (s.wf r v).csr.mcounteren = s.csr.mcounteren := rfl
@[simp] theorem State.wf_csr_scounteren (s : State) (r : Reg) (v : Word) : (s.wf r v).csr.scounteren = s.csr.scounteren := rfl
@[simp] theorem State.wf_csr_mcountinhibit (s : State) (r : Reg) (v : Word) : (s.wf r v).csr.mcountinhibit = s.csr.mcountinhibit := rfl
@[simp] theorem State.wf_csr_mcycle (s : State) (r : Reg) (v : Word) : (s.wf r v).csr.mcycle = s.csr.mcycle := rfl
@[simp] theorem State.wf_csr_minstret (s : State) (r : Reg) (v : Word) : (s.wf r v).csr.minstret = s.csr.minstret := rfl
@[simp] theorem State.wf_csr_jvt (s : State) (r : Reg) (v : Word) : (s.wf r v).csr.jvt = s.csr.jvt := rfl

/-! ### `count` -/

@[simp] theorem State.count_cfg (s : State) : (s.count).cfg = s.cfg := by unfold State.count; split <;> rfl
@[simp] theorem State.count_x (s : State) : (s.count).x = s.x := by unfold State.count; split <;> rfl
@[simp] theorem State.count_pc (s : State) : (s.count).pc = s.pc := by unfold State.count; split <;> rfl
@[simp] theorem State.count_f (s : State) : (s.count).f = s.f := by unfold State.count; split <;> rfl
@[simp] theorem State.count_fflags (s : State) : (s.count).fflags = s.fflags := by unfold State.count; split <;> rfl
@[simp] theorem State.count_frm (s : State) : (s.count).frm = s.frm := by unfold State.count; split <;> rfl
@[simp] theorem State.count_priv (s : State) : (s.count).priv = s.priv := by unfold State.count; split <;> rfl
@[simp] theorem State.count_resv (s : State) : (s.count).resv = s.resv := by unfold State.count; split <;> rfl
@[simp] theorem State.count_waiting (s : State) : (s.count).waiting = s.waiting := by unfold State.count; split <;> rfl
@[simp] theorem State.count_mem (s : State) : (s.count).mem = s.mem := by unfold State.count; split <;> rfl
@[simp] theorem State.count_clint (s : State) : (s.count).clint = s.clint := by unfold State.count; split <;> rfl
@[simp] theorem State.count_lines (s : State) : (s.count).lines = s.lines := by unfold State.count; split <;> rfl
@[simp] theorem State.count_env (s : State) : (s.count).env = s.env := by unfold State.count; split <;> rfl
@[simp] theorem State.count_draws (s : State) : (s.count).draws = s.draws := by unfold State.count; split <;> rfl
@[simp] theorem State.count_csr_mstatus (s : State) : (s.count).csr.mstatus = s.csr.mstatus := by unfold State.count; split <;> rfl
@[simp] theorem State.count_csr_medeleg (s : State) : (s.count).csr.medeleg = s.csr.medeleg := by unfold State.count; split <;> rfl
@[simp] theorem State.count_csr_mideleg (s : State) : (s.count).csr.mideleg = s.csr.mideleg := by unfold State.count; split <;> rfl
@[simp] theorem State.count_csr_mie (s : State) : (s.count).csr.mie = s.csr.mie := by unfold State.count; split <;> rfl
@[simp] theorem State.count_csr_ssip (s : State) : (s.count).csr.ssip = s.csr.ssip := by unfold State.count; split <;> rfl
@[simp] theorem State.count_csr_stip (s : State) : (s.count).csr.stip = s.csr.stip := by unfold State.count; split <;> rfl
@[simp] theorem State.count_csr_seip (s : State) : (s.count).csr.seip = s.csr.seip := by unfold State.count; split <;> rfl
@[simp] theorem State.count_csr_mtvec (s : State) : (s.count).csr.mtvec = s.csr.mtvec := by unfold State.count; split <;> rfl
@[simp] theorem State.count_csr_stvec (s : State) : (s.count).csr.stvec = s.csr.stvec := by unfold State.count; split <;> rfl
@[simp] theorem State.count_csr_mscratch (s : State) : (s.count).csr.mscratch = s.csr.mscratch := by unfold State.count; split <;> rfl
@[simp] theorem State.count_csr_sscratch (s : State) : (s.count).csr.sscratch = s.csr.sscratch := by unfold State.count; split <;> rfl
@[simp] theorem State.count_csr_mepc (s : State) : (s.count).csr.mepc = s.csr.mepc := by unfold State.count; split <;> rfl
@[simp] theorem State.count_csr_sepc (s : State) : (s.count).csr.sepc = s.csr.sepc := by unfold State.count; split <;> rfl
@[simp] theorem State.count_csr_mcause (s : State) : (s.count).csr.mcause = s.csr.mcause := by unfold State.count; split <;> rfl
@[simp] theorem State.count_csr_scause (s : State) : (s.count).csr.scause = s.csr.scause := by unfold State.count; split <;> rfl
@[simp] theorem State.count_csr_mtval (s : State) : (s.count).csr.mtval = s.csr.mtval := by unfold State.count; split <;> rfl
@[simp] theorem State.count_csr_stval (s : State) : (s.count).csr.stval = s.csr.stval := by unfold State.count; split <;> rfl
@[simp] theorem State.count_csr_satp (s : State) : (s.count).csr.satp = s.csr.satp := by unfold State.count; split <;> rfl
@[simp] theorem State.count_csr_mcounteren (s : State) : (s.count).csr.mcounteren = s.csr.mcounteren := by unfold State.count; split <;> rfl
@[simp] theorem State.count_csr_scounteren (s : State) : (s.count).csr.scounteren = s.csr.scounteren := by unfold State.count; split <;> rfl
@[simp] theorem State.count_csr_mcountinhibit (s : State) : (s.count).csr.mcountinhibit = s.csr.mcountinhibit := by unfold State.count; split <;> rfl
@[simp] theorem State.count_csr_mcycle (s : State) : (s.count).csr.mcycle = s.csr.mcycle := by unfold State.count; split <;> rfl
@[simp] theorem State.count_csr_jvt (s : State) : (s.count).csr.jvt = s.csr.jvt := by unfold State.count; split <;> rfl

/-! ### `accrue` -/

@[simp] theorem State.accrue_cfg (s : State) (fl : Flags) : (s.accrue fl).cfg = s.cfg := by unfold State.accrue; split <;> rfl
@[simp] theorem State.accrue_x (s : State) (fl : Flags) : (s.accrue fl).x = s.x := by unfold State.accrue; split <;> rfl
@[simp] theorem State.accrue_pc (s : State) (fl : Flags) : (s.accrue fl).pc = s.pc := by unfold State.accrue; split <;> rfl
@[simp] theorem State.accrue_f (s : State) (fl : Flags) : (s.accrue fl).f = s.f := by unfold State.accrue; split <;> rfl
@[simp] theorem State.accrue_frm (s : State) (fl : Flags) : (s.accrue fl).frm = s.frm := by unfold State.accrue; split <;> rfl
@[simp] theorem State.accrue_priv (s : State) (fl : Flags) : (s.accrue fl).priv = s.priv := by unfold State.accrue; split <;> rfl
@[simp] theorem State.accrue_resv (s : State) (fl : Flags) : (s.accrue fl).resv = s.resv := by unfold State.accrue; split <;> rfl
@[simp] theorem State.accrue_waiting (s : State) (fl : Flags) : (s.accrue fl).waiting = s.waiting := by unfold State.accrue; split <;> rfl
@[simp] theorem State.accrue_mem (s : State) (fl : Flags) : (s.accrue fl).mem = s.mem := by unfold State.accrue; split <;> rfl
@[simp] theorem State.accrue_clint (s : State) (fl : Flags) : (s.accrue fl).clint = s.clint := by unfold State.accrue; split <;> rfl
@[simp] theorem State.accrue_lines (s : State) (fl : Flags) : (s.accrue fl).lines = s.lines := by unfold State.accrue; split <;> rfl
@[simp] theorem State.accrue_env (s : State) (fl : Flags) : (s.accrue fl).env = s.env := by unfold State.accrue; split <;> rfl
@[simp] theorem State.accrue_draws (s : State) (fl : Flags) : (s.accrue fl).draws = s.draws := by unfold State.accrue; split <;> rfl
@[simp] theorem State.accrue_csr_medeleg (s : State) (fl : Flags) : (s.accrue fl).csr.medeleg = s.csr.medeleg := by unfold State.accrue; split <;> rfl
@[simp] theorem State.accrue_csr_mideleg (s : State) (fl : Flags) : (s.accrue fl).csr.mideleg = s.csr.mideleg := by unfold State.accrue; split <;> rfl
@[simp] theorem State.accrue_csr_mie (s : State) (fl : Flags) : (s.accrue fl).csr.mie = s.csr.mie := by unfold State.accrue; split <;> rfl
@[simp] theorem State.accrue_csr_ssip (s : State) (fl : Flags) : (s.accrue fl).csr.ssip = s.csr.ssip := by unfold State.accrue; split <;> rfl
@[simp] theorem State.accrue_csr_stip (s : State) (fl : Flags) : (s.accrue fl).csr.stip = s.csr.stip := by unfold State.accrue; split <;> rfl
@[simp] theorem State.accrue_csr_seip (s : State) (fl : Flags) : (s.accrue fl).csr.seip = s.csr.seip := by unfold State.accrue; split <;> rfl
@[simp] theorem State.accrue_csr_mtvec (s : State) (fl : Flags) : (s.accrue fl).csr.mtvec = s.csr.mtvec := by unfold State.accrue; split <;> rfl
@[simp] theorem State.accrue_csr_stvec (s : State) (fl : Flags) : (s.accrue fl).csr.stvec = s.csr.stvec := by unfold State.accrue; split <;> rfl
@[simp] theorem State.accrue_csr_mscratch (s : State) (fl : Flags) : (s.accrue fl).csr.mscratch = s.csr.mscratch := by unfold State.accrue; split <;> rfl
@[simp] theorem State.accrue_csr_sscratch (s : State) (fl : Flags) : (s.accrue fl).csr.sscratch = s.csr.sscratch := by unfold State.accrue; split <;> rfl
@[simp] theorem State.accrue_csr_mepc (s : State) (fl : Flags) : (s.accrue fl).csr.mepc = s.csr.mepc := by unfold State.accrue; split <;> rfl
@[simp] theorem State.accrue_csr_sepc (s : State) (fl : Flags) : (s.accrue fl).csr.sepc = s.csr.sepc := by unfold State.accrue; split <;> rfl
@[simp] theorem State.accrue_csr_mcause (s : State) (fl : Flags) : (s.accrue fl).csr.mcause = s.csr.mcause := by unfold State.accrue; split <;> rfl
@[simp] theorem State.accrue_csr_scause (s : State) (fl : Flags) : (s.accrue fl).csr.scause = s.csr.scause := by unfold State.accrue; split <;> rfl
@[simp] theorem State.accrue_csr_mtval (s : State) (fl : Flags) : (s.accrue fl).csr.mtval = s.csr.mtval := by unfold State.accrue; split <;> rfl
@[simp] theorem State.accrue_csr_stval (s : State) (fl : Flags) : (s.accrue fl).csr.stval = s.csr.stval := by unfold State.accrue; split <;> rfl
@[simp] theorem State.accrue_csr_satp (s : State) (fl : Flags) : (s.accrue fl).csr.satp = s.csr.satp := by unfold State.accrue; split <;> rfl
@[simp] theorem State.accrue_csr_mcounteren (s : State) (fl : Flags) : (s.accrue fl).csr.mcounteren = s.csr.mcounteren := by unfold State.accrue; split <;> rfl
@[simp] theorem State.accrue_csr_scounteren (s : State) (fl : Flags) : (s.accrue fl).csr.scounteren = s.csr.scounteren := by unfold State.accrue; split <;> rfl
@[simp] theorem State.accrue_csr_mcountinhibit (s : State) (fl : Flags) : (s.accrue fl).csr.mcountinhibit = s.csr.mcountinhibit := by unfold State.accrue; split <;> rfl
@[simp] theorem State.accrue_csr_mcycle (s : State) (fl : Flags) : (s.accrue fl).csr.mcycle = s.csr.mcycle := by unfold State.accrue; split <;> rfl
@[simp] theorem State.accrue_csr_minstret (s : State) (fl : Flags) : (s.accrue fl).csr.minstret = s.csr.minstret := by unfold State.accrue; split <;> rfl
@[simp] theorem State.accrue_csr_jvt (s : State) (fl : Flags) : (s.accrue fl).csr.jvt = s.csr.jvt := by unfold State.accrue; split <;> rfl

/-! ### `setMStatus` -/

@[simp] theorem State.setMStatus_cfg (s : State) (ms : MStatus) : (s.setMStatus ms).cfg = s.cfg := rfl
@[simp] theorem State.setMStatus_x (s : State) (ms : MStatus) : (s.setMStatus ms).x = s.x := rfl
@[simp] theorem State.setMStatus_pc (s : State) (ms : MStatus) : (s.setMStatus ms).pc = s.pc := rfl
@[simp] theorem State.setMStatus_f (s : State) (ms : MStatus) : (s.setMStatus ms).f = s.f := rfl
@[simp] theorem State.setMStatus_fflags (s : State) (ms : MStatus) : (s.setMStatus ms).fflags = s.fflags := rfl
@[simp] theorem State.setMStatus_frm (s : State) (ms : MStatus) : (s.setMStatus ms).frm = s.frm := rfl
@[simp] theorem State.setMStatus_priv (s : State) (ms : MStatus) : (s.setMStatus ms).priv = s.priv := rfl
@[simp] theorem State.setMStatus_resv (s : State) (ms : MStatus) : (s.setMStatus ms).resv = s.resv := rfl
@[simp] theorem State.setMStatus_waiting (s : State) (ms : MStatus) : (s.setMStatus ms).waiting = s.waiting := rfl
@[simp] theorem State.setMStatus_mem (s : State) (ms : MStatus) : (s.setMStatus ms).mem = s.mem := rfl
@[simp] theorem State.setMStatus_clint (s : State) (ms : MStatus) : (s.setMStatus ms).clint = s.clint := rfl
@[simp] theorem State.setMStatus_lines (s : State) (ms : MStatus) : (s.setMStatus ms).lines = s.lines := rfl
@[simp] theorem State.setMStatus_env (s : State) (ms : MStatus) : (s.setMStatus ms).env = s.env := rfl
@[simp] theorem State.setMStatus_draws (s : State) (ms : MStatus) : (s.setMStatus ms).draws = s.draws := rfl
@[simp] theorem State.setMStatus_csr_medeleg (s : State) (ms : MStatus) : (s.setMStatus ms).csr.medeleg = s.csr.medeleg := rfl
@[simp] theorem State.setMStatus_csr_mideleg (s : State) (ms : MStatus) : (s.setMStatus ms).csr.mideleg = s.csr.mideleg := rfl
@[simp] theorem State.setMStatus_csr_mie (s : State) (ms : MStatus) : (s.setMStatus ms).csr.mie = s.csr.mie := rfl
@[simp] theorem State.setMStatus_csr_ssip (s : State) (ms : MStatus) : (s.setMStatus ms).csr.ssip = s.csr.ssip := rfl
@[simp] theorem State.setMStatus_csr_stip (s : State) (ms : MStatus) : (s.setMStatus ms).csr.stip = s.csr.stip := rfl
@[simp] theorem State.setMStatus_csr_seip (s : State) (ms : MStatus) : (s.setMStatus ms).csr.seip = s.csr.seip := rfl
@[simp] theorem State.setMStatus_csr_mtvec (s : State) (ms : MStatus) : (s.setMStatus ms).csr.mtvec = s.csr.mtvec := rfl
@[simp] theorem State.setMStatus_csr_stvec (s : State) (ms : MStatus) : (s.setMStatus ms).csr.stvec = s.csr.stvec := rfl
@[simp] theorem State.setMStatus_csr_mscratch (s : State) (ms : MStatus) : (s.setMStatus ms).csr.mscratch = s.csr.mscratch := rfl
@[simp] theorem State.setMStatus_csr_sscratch (s : State) (ms : MStatus) : (s.setMStatus ms).csr.sscratch = s.csr.sscratch := rfl
@[simp] theorem State.setMStatus_csr_mepc (s : State) (ms : MStatus) : (s.setMStatus ms).csr.mepc = s.csr.mepc := rfl
@[simp] theorem State.setMStatus_csr_sepc (s : State) (ms : MStatus) : (s.setMStatus ms).csr.sepc = s.csr.sepc := rfl
@[simp] theorem State.setMStatus_csr_mcause (s : State) (ms : MStatus) : (s.setMStatus ms).csr.mcause = s.csr.mcause := rfl
@[simp] theorem State.setMStatus_csr_scause (s : State) (ms : MStatus) : (s.setMStatus ms).csr.scause = s.csr.scause := rfl
@[simp] theorem State.setMStatus_csr_mtval (s : State) (ms : MStatus) : (s.setMStatus ms).csr.mtval = s.csr.mtval := rfl
@[simp] theorem State.setMStatus_csr_stval (s : State) (ms : MStatus) : (s.setMStatus ms).csr.stval = s.csr.stval := rfl
@[simp] theorem State.setMStatus_csr_satp (s : State) (ms : MStatus) : (s.setMStatus ms).csr.satp = s.csr.satp := rfl
@[simp] theorem State.setMStatus_csr_mcounteren (s : State) (ms : MStatus) : (s.setMStatus ms).csr.mcounteren = s.csr.mcounteren := rfl
@[simp] theorem State.setMStatus_csr_scounteren (s : State) (ms : MStatus) : (s.setMStatus ms).csr.scounteren = s.csr.scounteren := rfl
@[simp] theorem State.setMStatus_csr_mcountinhibit (s : State) (ms : MStatus) : (s.setMStatus ms).csr.mcountinhibit = s.csr.mcountinhibit := rfl
@[simp] theorem State.setMStatus_csr_mcycle (s : State) (ms : MStatus) : (s.setMStatus ms).csr.mcycle = s.csr.mcycle := rfl
@[simp] theorem State.setMStatus_csr_minstret (s : State) (ms : MStatus) : (s.setMStatus ms).csr.minstret = s.csr.minstret := rfl
@[simp] theorem State.setMStatus_csr_jvt (s : State) (ms : MStatus) : (s.setMStatus ms).csr.jvt = s.csr.jvt := rfl

/-! ### `dirty` -/

@[simp] theorem State.dirty_cfg (s : State) : (s.dirty).cfg = s.cfg := rfl
@[simp] theorem State.dirty_x (s : State) : (s.dirty).x = s.x := rfl
@[simp] theorem State.dirty_pc (s : State) : (s.dirty).pc = s.pc := rfl
@[simp] theorem State.dirty_f (s : State) : (s.dirty).f = s.f := rfl
@[simp] theorem State.dirty_fflags (s : State) : (s.dirty).fflags = s.fflags := rfl
@[simp] theorem State.dirty_frm (s : State) : (s.dirty).frm = s.frm := rfl
@[simp] theorem State.dirty_priv (s : State) : (s.dirty).priv = s.priv := rfl
@[simp] theorem State.dirty_resv (s : State) : (s.dirty).resv = s.resv := rfl
@[simp] theorem State.dirty_waiting (s : State) : (s.dirty).waiting = s.waiting := rfl
@[simp] theorem State.dirty_mem (s : State) : (s.dirty).mem = s.mem := rfl
@[simp] theorem State.dirty_clint (s : State) : (s.dirty).clint = s.clint := rfl
@[simp] theorem State.dirty_lines (s : State) : (s.dirty).lines = s.lines := rfl
@[simp] theorem State.dirty_env (s : State) : (s.dirty).env = s.env := rfl
@[simp] theorem State.dirty_draws (s : State) : (s.dirty).draws = s.draws := rfl
@[simp] theorem State.dirty_csr_medeleg (s : State) : (s.dirty).csr.medeleg = s.csr.medeleg := rfl
@[simp] theorem State.dirty_csr_mideleg (s : State) : (s.dirty).csr.mideleg = s.csr.mideleg := rfl
@[simp] theorem State.dirty_csr_mie (s : State) : (s.dirty).csr.mie = s.csr.mie := rfl
@[simp] theorem State.dirty_csr_ssip (s : State) : (s.dirty).csr.ssip = s.csr.ssip := rfl
@[simp] theorem State.dirty_csr_stip (s : State) : (s.dirty).csr.stip = s.csr.stip := rfl
@[simp] theorem State.dirty_csr_seip (s : State) : (s.dirty).csr.seip = s.csr.seip := rfl
@[simp] theorem State.dirty_csr_mtvec (s : State) : (s.dirty).csr.mtvec = s.csr.mtvec := rfl
@[simp] theorem State.dirty_csr_stvec (s : State) : (s.dirty).csr.stvec = s.csr.stvec := rfl
@[simp] theorem State.dirty_csr_mscratch (s : State) : (s.dirty).csr.mscratch = s.csr.mscratch := rfl
@[simp] theorem State.dirty_csr_sscratch (s : State) : (s.dirty).csr.sscratch = s.csr.sscratch := rfl
@[simp] theorem State.dirty_csr_mepc (s : State) : (s.dirty).csr.mepc = s.csr.mepc := rfl
@[simp] theorem State.dirty_csr_sepc (s : State) : (s.dirty).csr.sepc = s.csr.sepc := rfl
@[simp] theorem State.dirty_csr_mcause (s : State) : (s.dirty).csr.mcause = s.csr.mcause := rfl
@[simp] theorem State.dirty_csr_scause (s : State) : (s.dirty).csr.scause = s.csr.scause := rfl
@[simp] theorem State.dirty_csr_mtval (s : State) : (s.dirty).csr.mtval = s.csr.mtval := rfl
@[simp] theorem State.dirty_csr_stval (s : State) : (s.dirty).csr.stval = s.csr.stval := rfl
@[simp] theorem State.dirty_csr_satp (s : State) : (s.dirty).csr.satp = s.csr.satp := rfl
@[simp] theorem State.dirty_csr_mcounteren (s : State) : (s.dirty).csr.mcounteren = s.csr.mcounteren := rfl
@[simp] theorem State.dirty_csr_scounteren (s : State) : (s.dirty).csr.scounteren = s.csr.scounteren := rfl
@[simp] theorem State.dirty_csr_mcountinhibit (s : State) : (s.dirty).csr.mcountinhibit = s.csr.mcountinhibit := rfl
@[simp] theorem State.dirty_csr_mcycle (s : State) : (s.dirty).csr.mcycle = s.csr.mcycle := rfl
@[simp] theorem State.dirty_csr_minstret (s : State) : (s.dirty).csr.minstret = s.csr.minstret := rfl
@[simp] theorem State.dirty_csr_jvt (s : State) : (s.dirty).csr.jvt = s.csr.jvt := rfl

/-! ### `physWrite` -/

@[simp] theorem State.physWrite_cfg (s : State) (pa n : Nat) (v : Word) : (s.physWrite pa n v).cfg = s.cfg := by
  unfold State.physWrite; repeat' split
  all_goals rfl
@[simp] theorem State.physWrite_x (s : State) (pa n : Nat) (v : Word) : (s.physWrite pa n v).x = s.x := by
  unfold State.physWrite; repeat' split
  all_goals rfl
@[simp] theorem State.physWrite_pc (s : State) (pa n : Nat) (v : Word) : (s.physWrite pa n v).pc = s.pc := by
  unfold State.physWrite; repeat' split
  all_goals rfl
@[simp] theorem State.physWrite_f (s : State) (pa n : Nat) (v : Word) : (s.physWrite pa n v).f = s.f := by
  unfold State.physWrite; repeat' split
  all_goals rfl
@[simp] theorem State.physWrite_fflags (s : State) (pa n : Nat) (v : Word) : (s.physWrite pa n v).fflags = s.fflags := by
  unfold State.physWrite; repeat' split
  all_goals rfl
@[simp] theorem State.physWrite_frm (s : State) (pa n : Nat) (v : Word) : (s.physWrite pa n v).frm = s.frm := by
  unfold State.physWrite; repeat' split
  all_goals rfl
@[simp] theorem State.physWrite_priv (s : State) (pa n : Nat) (v : Word) : (s.physWrite pa n v).priv = s.priv := by
  unfold State.physWrite; repeat' split
  all_goals rfl
@[simp] theorem State.physWrite_csr (s : State) (pa n : Nat) (v : Word) : (s.physWrite pa n v).csr = s.csr := by
  unfold State.physWrite; repeat' split
  all_goals rfl
@[simp] theorem State.physWrite_resv (s : State) (pa n : Nat) (v : Word) : (s.physWrite pa n v).resv = s.resv := by
  unfold State.physWrite; repeat' split
  all_goals rfl
@[simp] theorem State.physWrite_waiting (s : State) (pa n : Nat) (v : Word) : (s.physWrite pa n v).waiting = s.waiting := by
  unfold State.physWrite; repeat' split
  all_goals rfl
@[simp] theorem State.physWrite_lines (s : State) (pa n : Nat) (v : Word) : (s.physWrite pa n v).lines = s.lines := by
  unfold State.physWrite; repeat' split
  all_goals rfl
@[simp] theorem State.physWrite_env (s : State) (pa n : Nat) (v : Word) : (s.physWrite pa n v).env = s.env := by
  unfold State.physWrite; repeat' split
  all_goals rfl
@[simp] theorem State.physWrite_draws (s : State) (pa n : Nat) (v : Word) : (s.physWrite pa n v).draws = s.draws := by
  unfold State.physWrite; repeat' split
  all_goals rfl

/-! ### `trapM` -/

@[simp] theorem State.trapM_cfg (s : State) (intr : Bool) (code : Nat) (epc tval : Word) : (s.trapM intr code epc tval).cfg = s.cfg := rfl
@[simp] theorem State.trapM_x (s : State) (intr : Bool) (code : Nat) (epc tval : Word) : (s.trapM intr code epc tval).x = s.x := rfl
@[simp] theorem State.trapM_f (s : State) (intr : Bool) (code : Nat) (epc tval : Word) : (s.trapM intr code epc tval).f = s.f := rfl
@[simp] theorem State.trapM_fflags (s : State) (intr : Bool) (code : Nat) (epc tval : Word) : (s.trapM intr code epc tval).fflags = s.fflags := rfl
@[simp] theorem State.trapM_frm (s : State) (intr : Bool) (code : Nat) (epc tval : Word) : (s.trapM intr code epc tval).frm = s.frm := rfl
@[simp] theorem State.trapM_mem (s : State) (intr : Bool) (code : Nat) (epc tval : Word) : (s.trapM intr code epc tval).mem = s.mem := rfl
@[simp] theorem State.trapM_clint (s : State) (intr : Bool) (code : Nat) (epc tval : Word) : (s.trapM intr code epc tval).clint = s.clint := rfl
@[simp] theorem State.trapM_lines (s : State) (intr : Bool) (code : Nat) (epc tval : Word) : (s.trapM intr code epc tval).lines = s.lines := rfl
@[simp] theorem State.trapM_env (s : State) (intr : Bool) (code : Nat) (epc tval : Word) : (s.trapM intr code epc tval).env = s.env := rfl
@[simp] theorem State.trapM_draws (s : State) (intr : Bool) (code : Nat) (epc tval : Word) : (s.trapM intr code epc tval).draws = s.draws := rfl
@[simp] theorem State.trapM_csr_medeleg (s : State) (intr : Bool) (code : Nat) (epc tval : Word) : (s.trapM intr code epc tval).csr.medeleg = s.csr.medeleg := rfl
@[simp] theorem State.trapM_csr_mideleg (s : State) (intr : Bool) (code : Nat) (epc tval : Word) : (s.trapM intr code epc tval).csr.mideleg = s.csr.mideleg := rfl
@[simp] theorem State.trapM_csr_mie (s : State) (intr : Bool) (code : Nat) (epc tval : Word) : (s.trapM intr code epc tval).csr.mie = s.csr.mie := rfl
@[simp] theorem State.trapM_csr_ssip (s : State) (intr : Bool) (code : Nat) (epc tval : Word) : (s.trapM intr code epc tval).csr.ssip = s.csr.ssip := rfl
@[simp] theorem State.trapM_csr_stip (s : State) (intr : Bool) (code : Nat) (epc tval : Word) : (s.trapM intr code epc tval).csr.stip = s.csr.stip := rfl
@[simp] theorem State.trapM_csr_seip (s : State) (intr : Bool) (code : Nat) (epc tval : Word) : (s.trapM intr code epc tval).csr.seip = s.csr.seip := rfl
@[simp] theorem State.trapM_csr_mtvec (s : State) (intr : Bool) (code : Nat) (epc tval : Word) : (s.trapM intr code epc tval).csr.mtvec = s.csr.mtvec := rfl
@[simp] theorem State.trapM_csr_stvec (s : State) (intr : Bool) (code : Nat) (epc tval : Word) : (s.trapM intr code epc tval).csr.stvec = s.csr.stvec := rfl
@[simp] theorem State.trapM_csr_mscratch (s : State) (intr : Bool) (code : Nat) (epc tval : Word) : (s.trapM intr code epc tval).csr.mscratch = s.csr.mscratch := rfl
@[simp] theorem State.trapM_csr_sscratch (s : State) (intr : Bool) (code : Nat) (epc tval : Word) : (s.trapM intr code epc tval).csr.sscratch = s.csr.sscratch := rfl
@[simp] theorem State.trapM_csr_sepc (s : State) (intr : Bool) (code : Nat) (epc tval : Word) : (s.trapM intr code epc tval).csr.sepc = s.csr.sepc := rfl
@[simp] theorem State.trapM_csr_scause (s : State) (intr : Bool) (code : Nat) (epc tval : Word) : (s.trapM intr code epc tval).csr.scause = s.csr.scause := rfl
@[simp] theorem State.trapM_csr_stval (s : State) (intr : Bool) (code : Nat) (epc tval : Word) : (s.trapM intr code epc tval).csr.stval = s.csr.stval := rfl
@[simp] theorem State.trapM_csr_satp (s : State) (intr : Bool) (code : Nat) (epc tval : Word) : (s.trapM intr code epc tval).csr.satp = s.csr.satp := rfl
@[simp] theorem State.trapM_csr_mcounteren (s : State) (intr : Bool) (code : Nat) (epc tval : Word) : (s.trapM intr code epc tval).csr.mcounteren = s.csr.mcounteren := rfl
@[simp] theorem State.trapM_csr_scounteren (s : State) (intr : Bool) (code : Nat) (epc tval : Word) : (s.trapM intr code epc tval).csr.scounteren = s.csr.scounteren := rfl
@[simp] theorem State.trapM_csr_mcountinhibit (s : State) (intr : Bool) (code : Nat) (epc tval : Word) : (s.trapM intr code epc tval).csr.mcountinhibit = s.csr.mcountinhibit := rfl
@[simp] theorem State.trapM_csr_mcycle (s : State) (intr : Bool) (code : Nat) (epc tval : Word) : (s.trapM intr code epc tval).csr.mcycle = s.csr.mcycle := rfl
@[simp] theorem State.trapM_csr_minstret (s : State) (intr : Bool) (code : Nat) (epc tval : Word) : (s.trapM intr code epc tval).csr.minstret = s.csr.minstret := rfl
@[simp] theorem State.trapM_csr_jvt (s : State) (intr : Bool) (code : Nat) (epc tval : Word) : (s.trapM intr code epc tval).csr.jvt = s.csr.jvt := rfl

/-! ### `trapS` -/

@[simp] theorem State.trapS_cfg (s : State) (intr : Bool) (code : Nat) (epc tval : Word) : (s.trapS intr code epc tval).cfg = s.cfg := rfl
@[simp] theorem State.trapS_x (s : State) (intr : Bool) (code : Nat) (epc tval : Word) : (s.trapS intr code epc tval).x = s.x := rfl
@[simp] theorem State.trapS_f (s : State) (intr : Bool) (code : Nat) (epc tval : Word) : (s.trapS intr code epc tval).f = s.f := rfl
@[simp] theorem State.trapS_fflags (s : State) (intr : Bool) (code : Nat) (epc tval : Word) : (s.trapS intr code epc tval).fflags = s.fflags := rfl
@[simp] theorem State.trapS_frm (s : State) (intr : Bool) (code : Nat) (epc tval : Word) : (s.trapS intr code epc tval).frm = s.frm := rfl
@[simp] theorem State.trapS_mem (s : State) (intr : Bool) (code : Nat) (epc tval : Word) : (s.trapS intr code epc tval).mem = s.mem := rfl
@[simp] theorem State.trapS_clint (s : State) (intr : Bool) (code : Nat) (epc tval : Word) : (s.trapS intr code epc tval).clint = s.clint := rfl
@[simp] theorem State.trapS_lines (s : State) (intr : Bool) (code : Nat) (epc tval : Word) : (s.trapS intr code epc tval).lines = s.lines := rfl
@[simp] theorem State.trapS_env (s : State) (intr : Bool) (code : Nat) (epc tval : Word) : (s.trapS intr code epc tval).env = s.env := rfl
@[simp] theorem State.trapS_draws (s : State) (intr : Bool) (code : Nat) (epc tval : Word) : (s.trapS intr code epc tval).draws = s.draws := rfl
@[simp] theorem State.trapS_csr_medeleg (s : State) (intr : Bool) (code : Nat) (epc tval : Word) : (s.trapS intr code epc tval).csr.medeleg = s.csr.medeleg := rfl
@[simp] theorem State.trapS_csr_mideleg (s : State) (intr : Bool) (code : Nat) (epc tval : Word) : (s.trapS intr code epc tval).csr.mideleg = s.csr.mideleg := rfl
@[simp] theorem State.trapS_csr_mie (s : State) (intr : Bool) (code : Nat) (epc tval : Word) : (s.trapS intr code epc tval).csr.mie = s.csr.mie := rfl
@[simp] theorem State.trapS_csr_ssip (s : State) (intr : Bool) (code : Nat) (epc tval : Word) : (s.trapS intr code epc tval).csr.ssip = s.csr.ssip := rfl
@[simp] theorem State.trapS_csr_stip (s : State) (intr : Bool) (code : Nat) (epc tval : Word) : (s.trapS intr code epc tval).csr.stip = s.csr.stip := rfl
@[simp] theorem State.trapS_csr_seip (s : State) (intr : Bool) (code : Nat) (epc tval : Word) : (s.trapS intr code epc tval).csr.seip = s.csr.seip := rfl
@[simp] theorem State.trapS_csr_mtvec (s : State) (intr : Bool) (code : Nat) (epc tval : Word) : (s.trapS intr code epc tval).csr.mtvec = s.csr.mtvec := rfl
@[simp] theorem State.trapS_csr_stvec (s : State) (intr : Bool) (code : Nat) (epc tval : Word) : (s.trapS intr code epc tval).csr.stvec = s.csr.stvec := rfl
@[simp] theorem State.trapS_csr_mscratch (s : State) (intr : Bool) (code : Nat) (epc tval : Word) : (s.trapS intr code epc tval).csr.mscratch = s.csr.mscratch := rfl
@[simp] theorem State.trapS_csr_sscratch (s : State) (intr : Bool) (code : Nat) (epc tval : Word) : (s.trapS intr code epc tval).csr.sscratch = s.csr.sscratch := rfl
@[simp] theorem State.trapS_csr_mepc (s : State) (intr : Bool) (code : Nat) (epc tval : Word) : (s.trapS intr code epc tval).csr.mepc = s.csr.mepc := rfl
@[simp] theorem State.trapS_csr_mcause (s : State) (intr : Bool) (code : Nat) (epc tval : Word) : (s.trapS intr code epc tval).csr.mcause = s.csr.mcause := rfl
@[simp] theorem State.trapS_csr_mtval (s : State) (intr : Bool) (code : Nat) (epc tval : Word) : (s.trapS intr code epc tval).csr.mtval = s.csr.mtval := rfl
@[simp] theorem State.trapS_csr_satp (s : State) (intr : Bool) (code : Nat) (epc tval : Word) : (s.trapS intr code epc tval).csr.satp = s.csr.satp := rfl
@[simp] theorem State.trapS_csr_mcounteren (s : State) (intr : Bool) (code : Nat) (epc tval : Word) : (s.trapS intr code epc tval).csr.mcounteren = s.csr.mcounteren := rfl
@[simp] theorem State.trapS_csr_scounteren (s : State) (intr : Bool) (code : Nat) (epc tval : Word) : (s.trapS intr code epc tval).csr.scounteren = s.csr.scounteren := rfl
@[simp] theorem State.trapS_csr_mcountinhibit (s : State) (intr : Bool) (code : Nat) (epc tval : Word) : (s.trapS intr code epc tval).csr.mcountinhibit = s.csr.mcountinhibit := rfl
@[simp] theorem State.trapS_csr_mcycle (s : State) (intr : Bool) (code : Nat) (epc tval : Word) : (s.trapS intr code epc tval).csr.mcycle = s.csr.mcycle := rfl
@[simp] theorem State.trapS_csr_minstret (s : State) (intr : Bool) (code : Nat) (epc tval : Word) : (s.trapS intr code epc tval).csr.minstret = s.csr.minstret := rfl
@[simp] theorem State.trapS_csr_jvt (s : State) (intr : Bool) (code : Nat) (epc tval : Word) : (s.trapS intr code epc tval).csr.jvt = s.csr.jvt := rfl

/-! ### `take` -/

@[simp] theorem State.take_cfg (s : State) (e : Exc) (tval : Word) : (s.take e tval).cfg = s.cfg := by unfold State.take; split <;> rfl
@[simp] theorem State.take_x (s : State) (e : Exc) (tval : Word) : (s.take e tval).x = s.x := by unfold State.take; split <;> rfl
@[simp] theorem State.take_f (s : State) (e : Exc) (tval : Word) : (s.take e tval).f = s.f := by unfold State.take; split <;> rfl
@[simp] theorem State.take_fflags (s : State) (e : Exc) (tval : Word) : (s.take e tval).fflags = s.fflags := by unfold State.take; split <;> rfl
@[simp] theorem State.take_frm (s : State) (e : Exc) (tval : Word) : (s.take e tval).frm = s.frm := by unfold State.take; split <;> rfl
@[simp] theorem State.take_mem (s : State) (e : Exc) (tval : Word) : (s.take e tval).mem = s.mem := by unfold State.take; split <;> rfl
@[simp] theorem State.take_clint (s : State) (e : Exc) (tval : Word) : (s.take e tval).clint = s.clint := by unfold State.take; split <;> rfl
@[simp] theorem State.take_lines (s : State) (e : Exc) (tval : Word) : (s.take e tval).lines = s.lines := by unfold State.take; split <;> rfl
@[simp] theorem State.take_env (s : State) (e : Exc) (tval : Word) : (s.take e tval).env = s.env := by unfold State.take; split <;> rfl
@[simp] theorem State.take_draws (s : State) (e : Exc) (tval : Word) : (s.take e tval).draws = s.draws := by unfold State.take; split <;> rfl
@[simp] theorem State.take_csr_medeleg (s : State) (e : Exc) (tval : Word) : (s.take e tval).csr.medeleg = s.csr.medeleg := by unfold State.take; split <;> rfl
@[simp] theorem State.take_csr_mideleg (s : State) (e : Exc) (tval : Word) : (s.take e tval).csr.mideleg = s.csr.mideleg := by unfold State.take; split <;> rfl
@[simp] theorem State.take_csr_mie (s : State) (e : Exc) (tval : Word) : (s.take e tval).csr.mie = s.csr.mie := by unfold State.take; split <;> rfl
@[simp] theorem State.take_csr_ssip (s : State) (e : Exc) (tval : Word) : (s.take e tval).csr.ssip = s.csr.ssip := by unfold State.take; split <;> rfl
@[simp] theorem State.take_csr_stip (s : State) (e : Exc) (tval : Word) : (s.take e tval).csr.stip = s.csr.stip := by unfold State.take; split <;> rfl
@[simp] theorem State.take_csr_seip (s : State) (e : Exc) (tval : Word) : (s.take e tval).csr.seip = s.csr.seip := by unfold State.take; split <;> rfl
@[simp] theorem State.take_csr_mtvec (s : State) (e : Exc) (tval : Word) : (s.take e tval).csr.mtvec = s.csr.mtvec := by unfold State.take; split <;> rfl
@[simp] theorem State.take_csr_stvec (s : State) (e : Exc) (tval : Word) : (s.take e tval).csr.stvec = s.csr.stvec := by unfold State.take; split <;> rfl
@[simp] theorem State.take_csr_mscratch (s : State) (e : Exc) (tval : Word) : (s.take e tval).csr.mscratch = s.csr.mscratch := by unfold State.take; split <;> rfl
@[simp] theorem State.take_csr_sscratch (s : State) (e : Exc) (tval : Word) : (s.take e tval).csr.sscratch = s.csr.sscratch := by unfold State.take; split <;> rfl
@[simp] theorem State.take_csr_satp (s : State) (e : Exc) (tval : Word) : (s.take e tval).csr.satp = s.csr.satp := by unfold State.take; split <;> rfl
@[simp] theorem State.take_csr_mcounteren (s : State) (e : Exc) (tval : Word) : (s.take e tval).csr.mcounteren = s.csr.mcounteren := by unfold State.take; split <;> rfl
@[simp] theorem State.take_csr_scounteren (s : State) (e : Exc) (tval : Word) : (s.take e tval).csr.scounteren = s.csr.scounteren := by unfold State.take; split <;> rfl
@[simp] theorem State.take_csr_mcountinhibit (s : State) (e : Exc) (tval : Word) : (s.take e tval).csr.mcountinhibit = s.csr.mcountinhibit := by unfold State.take; split <;> rfl
@[simp] theorem State.take_csr_mcycle (s : State) (e : Exc) (tval : Word) : (s.take e tval).csr.mcycle = s.csr.mcycle := by unfold State.take; split <;> rfl
@[simp] theorem State.take_csr_minstret (s : State) (e : Exc) (tval : Word) : (s.take e tval).csr.minstret = s.csr.minstret := by unfold State.take; split <;> rfl
@[simp] theorem State.take_csr_jvt (s : State) (e : Exc) (tval : Word) : (s.take e tval).csr.jvt = s.csr.jvt := by unfold State.take; split <;> rfl

/-! ### `mret` -/

@[simp] theorem State.mret_cfg (s : State) : (s.mret).cfg = s.cfg := rfl
@[simp] theorem State.mret_x (s : State) : (s.mret).x = s.x := rfl
@[simp] theorem State.mret_f (s : State) : (s.mret).f = s.f := rfl
@[simp] theorem State.mret_fflags (s : State) : (s.mret).fflags = s.fflags := rfl
@[simp] theorem State.mret_frm (s : State) : (s.mret).frm = s.frm := rfl
@[simp] theorem State.mret_waiting (s : State) : (s.mret).waiting = s.waiting := rfl
@[simp] theorem State.mret_mem (s : State) : (s.mret).mem = s.mem := rfl
@[simp] theorem State.mret_clint (s : State) : (s.mret).clint = s.clint := rfl
@[simp] theorem State.mret_lines (s : State) : (s.mret).lines = s.lines := rfl
@[simp] theorem State.mret_env (s : State) : (s.mret).env = s.env := rfl
@[simp] theorem State.mret_draws (s : State) : (s.mret).draws = s.draws := rfl
@[simp] theorem State.mret_csr_medeleg (s : State) : (s.mret).csr.medeleg = s.csr.medeleg := rfl
@[simp] theorem State.mret_csr_mideleg (s : State) : (s.mret).csr.mideleg = s.csr.mideleg := rfl
@[simp] theorem State.mret_csr_mie (s : State) : (s.mret).csr.mie = s.csr.mie := rfl
@[simp] theorem State.mret_csr_ssip (s : State) : (s.mret).csr.ssip = s.csr.ssip := rfl
@[simp] theorem State.mret_csr_stip (s : State) : (s.mret).csr.stip = s.csr.stip := rfl
@[simp] theorem State.mret_csr_seip (s : State) : (s.mret).csr.seip = s.csr.seip := rfl
@[simp] theorem State.mret_csr_mtvec (s : State) : (s.mret).csr.mtvec = s.csr.mtvec := rfl
@[simp] theorem State.mret_csr_stvec (s : State) : (s.mret).csr.stvec = s.csr.stvec := rfl
@[simp] theorem State.mret_csr_mscratch (s : State) : (s.mret).csr.mscratch = s.csr.mscratch := rfl
@[simp] theorem State.mret_csr_sscratch (s : State) : (s.mret).csr.sscratch = s.csr.sscratch := rfl
@[simp] theorem State.mret_csr_mepc (s : State) : (s.mret).csr.mepc = s.csr.mepc := rfl
@[simp] theorem State.mret_csr_sepc (s : State) : (s.mret).csr.sepc = s.csr.sepc := rfl
@[simp] theorem State.mret_csr_mcause (s : State) : (s.mret).csr.mcause = s.csr.mcause := rfl
@[simp] theorem State.mret_csr_scause (s : State) : (s.mret).csr.scause = s.csr.scause := rfl
@[simp] theorem State.mret_csr_mtval (s : State) : (s.mret).csr.mtval = s.csr.mtval := rfl
@[simp] theorem State.mret_csr_stval (s : State) : (s.mret).csr.stval = s.csr.stval := rfl
@[simp] theorem State.mret_csr_satp (s : State) : (s.mret).csr.satp = s.csr.satp := rfl
@[simp] theorem State.mret_csr_mcounteren (s : State) : (s.mret).csr.mcounteren = s.csr.mcounteren := rfl
@[simp] theorem State.mret_csr_scounteren (s : State) : (s.mret).csr.scounteren = s.csr.scounteren := rfl
@[simp] theorem State.mret_csr_mcountinhibit (s : State) : (s.mret).csr.mcountinhibit = s.csr.mcountinhibit := rfl
@[simp] theorem State.mret_csr_mcycle (s : State) : (s.mret).csr.mcycle = s.csr.mcycle := rfl
@[simp] theorem State.mret_csr_minstret (s : State) : (s.mret).csr.minstret = s.csr.minstret := rfl
@[simp] theorem State.mret_csr_jvt (s : State) : (s.mret).csr.jvt = s.csr.jvt := rfl

/-! ### `sret` -/

@[simp] theorem State.sret_cfg (s : State) : (s.sret).cfg = s.cfg := rfl
@[simp] theorem State.sret_x (s : State) : (s.sret).x = s.x := rfl
@[simp] theorem State.sret_f (s : State) : (s.sret).f = s.f := rfl
@[simp] theorem State.sret_fflags (s : State) : (s.sret).fflags = s.fflags := rfl
@[simp] theorem State.sret_frm (s : State) : (s.sret).frm = s.frm := rfl
@[simp] theorem State.sret_waiting (s : State) : (s.sret).waiting = s.waiting := rfl
@[simp] theorem State.sret_mem (s : State) : (s.sret).mem = s.mem := rfl
@[simp] theorem State.sret_clint (s : State) : (s.sret).clint = s.clint := rfl
@[simp] theorem State.sret_lines (s : State) : (s.sret).lines = s.lines := rfl
@[simp] theorem State.sret_env (s : State) : (s.sret).env = s.env := rfl
@[simp] theorem State.sret_draws (s : State) : (s.sret).draws = s.draws := rfl
@[simp] theorem State.sret_csr_medeleg (s : State) : (s.sret).csr.medeleg = s.csr.medeleg := rfl
@[simp] theorem State.sret_csr_mideleg (s : State) : (s.sret).csr.mideleg = s.csr.mideleg := rfl
@[simp] theorem State.sret_csr_mie (s : State) : (s.sret).csr.mie = s.csr.mie := rfl
@[simp] theorem State.sret_csr_ssip (s : State) : (s.sret).csr.ssip = s.csr.ssip := rfl
@[simp] theorem State.sret_csr_stip (s : State) : (s.sret).csr.stip = s.csr.stip := rfl
@[simp] theorem State.sret_csr_seip (s : State) : (s.sret).csr.seip = s.csr.seip := rfl
@[simp] theorem State.sret_csr_mtvec (s : State) : (s.sret).csr.mtvec = s.csr.mtvec := rfl
@[simp] theorem State.sret_csr_stvec (s : State) : (s.sret).csr.stvec = s.csr.stvec := rfl
@[simp] theorem State.sret_csr_mscratch (s : State) : (s.sret).csr.mscratch = s.csr.mscratch := rfl
@[simp] theorem State.sret_csr_sscratch (s : State) : (s.sret).csr.sscratch = s.csr.sscratch := rfl
@[simp] theorem State.sret_csr_mepc (s : State) : (s.sret).csr.mepc = s.csr.mepc := rfl
@[simp] theorem State.sret_csr_sepc (s : State) : (s.sret).csr.sepc = s.csr.sepc := rfl
@[simp] theorem State.sret_csr_mcause (s : State) : (s.sret).csr.mcause = s.csr.mcause := rfl
@[simp] theorem State.sret_csr_scause (s : State) : (s.sret).csr.scause = s.csr.scause := rfl
@[simp] theorem State.sret_csr_mtval (s : State) : (s.sret).csr.mtval = s.csr.mtval := rfl
@[simp] theorem State.sret_csr_stval (s : State) : (s.sret).csr.stval = s.csr.stval := rfl
@[simp] theorem State.sret_csr_satp (s : State) : (s.sret).csr.satp = s.csr.satp := rfl
@[simp] theorem State.sret_csr_mcounteren (s : State) : (s.sret).csr.mcounteren = s.csr.mcounteren := rfl
@[simp] theorem State.sret_csr_scounteren (s : State) : (s.sret).csr.scounteren = s.csr.scounteren := rfl
@[simp] theorem State.sret_csr_mcountinhibit (s : State) : (s.sret).csr.mcountinhibit = s.csr.mcountinhibit := rfl
@[simp] theorem State.sret_csr_mcycle (s : State) : (s.sret).csr.mcycle = s.csr.mcycle := rfl
@[simp] theorem State.sret_csr_minstret (s : State) : (s.sret).csr.minstret = s.csr.minstret := rfl
@[simp] theorem State.sret_csr_jvt (s : State) : (s.sret).csr.jvt = s.csr.jvt := rfl

/-! ### `advanceCycle` -/

@[simp] theorem State.advanceCycle_cfg (s : State) : (s.advanceCycle).cfg = s.cfg := by unfold State.advanceCycle; split <;> rfl
@[simp] theorem State.advanceCycle_x (s : State) : (s.advanceCycle).x = s.x := by unfold State.advanceCycle; split <;> rfl
@[simp] theorem State.advanceCycle_pc (s : State) : (s.advanceCycle).pc = s.pc := by unfold State.advanceCycle; split <;> rfl
@[simp] theorem State.advanceCycle_f (s : State) : (s.advanceCycle).f = s.f := by unfold State.advanceCycle; split <;> rfl
@[simp] theorem State.advanceCycle_fflags (s : State) : (s.advanceCycle).fflags = s.fflags := by unfold State.advanceCycle; split <;> rfl
@[simp] theorem State.advanceCycle_frm (s : State) : (s.advanceCycle).frm = s.frm := by unfold State.advanceCycle; split <;> rfl
@[simp] theorem State.advanceCycle_priv (s : State) : (s.advanceCycle).priv = s.priv := by unfold State.advanceCycle; split <;> rfl
@[simp] theorem State.advanceCycle_resv (s : State) : (s.advanceCycle).resv = s.resv := by unfold State.advanceCycle; split <;> rfl
@[simp] theorem State.advanceCycle_waiting (s : State) : (s.advanceCycle).waiting = s.waiting := by unfold State.advanceCycle; split <;> rfl
@[simp] theorem State.advanceCycle_mem (s : State) : (s.advanceCycle).mem = s.mem := by unfold State.advanceCycle; split <;> rfl
@[simp] theorem State.advanceCycle_clint (s : State) : (s.advanceCycle).clint = s.clint := by unfold State.advanceCycle; split <;> rfl
@[simp] theorem State.advanceCycle_lines (s : State) : (s.advanceCycle).lines = s.lines := by unfold State.advanceCycle; split <;> rfl
@[simp] theorem State.advanceCycle_env (s : State) : (s.advanceCycle).env = s.env := by unfold State.advanceCycle; split <;> rfl
@[simp] theorem State.advanceCycle_draws (s : State) : (s.advanceCycle).draws = s.draws := by unfold State.advanceCycle; split <;> rfl
@[simp] theorem State.advanceCycle_csr_mstatus (s : State) : (s.advanceCycle).csr.mstatus = s.csr.mstatus := by unfold State.advanceCycle; split <;> rfl
@[simp] theorem State.advanceCycle_csr_medeleg (s : State) : (s.advanceCycle).csr.medeleg = s.csr.medeleg := by unfold State.advanceCycle; split <;> rfl
@[simp] theorem State.advanceCycle_csr_mideleg (s : State) : (s.advanceCycle).csr.mideleg = s.csr.mideleg := by unfold State.advanceCycle; split <;> rfl
@[simp] theorem State.advanceCycle_csr_mie (s : State) : (s.advanceCycle).csr.mie = s.csr.mie := by unfold State.advanceCycle; split <;> rfl
@[simp] theorem State.advanceCycle_csr_ssip (s : State) : (s.advanceCycle).csr.ssip = s.csr.ssip := by unfold State.advanceCycle; split <;> rfl
@[simp] theorem State.advanceCycle_csr_stip (s : State) : (s.advanceCycle).csr.stip = s.csr.stip := by unfold State.advanceCycle; split <;> rfl
@[simp] theorem State.advanceCycle_csr_seip (s : State) : (s.advanceCycle).csr.seip = s.csr.seip := by unfold State.advanceCycle; split <;> rfl
@[simp] theorem State.advanceCycle_csr_mtvec (s : State) : (s.advanceCycle).csr.mtvec = s.csr.mtvec := by unfold State.advanceCycle; split <;> rfl
@[simp] theorem State.advanceCycle_csr_stvec (s : State) : (s.advanceCycle).csr.stvec = s.csr.stvec := by unfold State.advanceCycle; split <;> rfl
@[simp] theorem State.advanceCycle_csr_mscratch (s : State) : (s.advanceCycle).csr.mscratch = s.csr.mscratch := by unfold State.advanceCycle; split <;> rfl
@[simp] theorem State.advanceCycle_csr_sscratch (s : State) : (s.advanceCycle).csr.sscratch = s.csr.sscratch := by unfold State.advanceCycle; split <;> rfl
@[simp] theorem State.advanceCycle_csr_mepc (s : State) : (s.advanceCycle).csr.mepc = s.csr.mepc := by unfold State.advanceCycle; split <;> rfl
@[simp] theorem State.advanceCycle_csr_sepc (s : State) : (s.advanceCycle).csr.sepc = s.csr.sepc := by unfold State.advanceCycle; split <;> rfl
@[simp] theorem State.advanceCycle_csr_mcause (s : State) : (s.advanceCycle).csr.mcause = s.csr.mcause := by unfold State.advanceCycle; split <;> rfl
@[simp] theorem State.advanceCycle_csr_scause (s : State) : (s.advanceCycle).csr.scause = s.csr.scause := by unfold State.advanceCycle; split <;> rfl
@[simp] theorem State.advanceCycle_csr_mtval (s : State) : (s.advanceCycle).csr.mtval = s.csr.mtval := by unfold State.advanceCycle; split <;> rfl
@[simp] theorem State.advanceCycle_csr_stval (s : State) : (s.advanceCycle).csr.stval = s.csr.stval := by unfold State.advanceCycle; split <;> rfl
@[simp] theorem State.advanceCycle_csr_satp (s : State) : (s.advanceCycle).csr.satp = s.csr.satp := by unfold State.advanceCycle; split <;> rfl
@[simp] theorem State.advanceCycle_csr_mcounteren (s : State) : (s.advanceCycle).csr.mcounteren = s.csr.mcounteren := by unfold State.advanceCycle; split <;> rfl
@[simp] theorem State.advanceCycle_csr_scounteren (s : State) : (s.advanceCycle).csr.scounteren = s.csr.scounteren := by unfold State.advanceCycle; split <;> rfl
@[simp] theorem State.advanceCycle_csr_mcountinhibit (s : State) : (s.advanceCycle).csr.mcountinhibit = s.csr.mcountinhibit := by unfold State.advanceCycle; split <;> rfl
@[simp] theorem State.advanceCycle_csr_minstret (s : State) : (s.advanceCycle).csr.minstret = s.csr.minstret := by unfold State.advanceCycle; split <;> rfl
@[simp] theorem State.advanceCycle_csr_jvt (s : State) : (s.advanceCycle).csr.jvt = s.csr.jvt := by unfold State.advanceCycle; split <;> rfl

/-! ### `advanceTime` -/

@[simp] theorem State.advanceTime_cfg (s : State) : (s.advanceTime).cfg = s.cfg := rfl
@[simp] theorem State.advanceTime_x (s : State) : (s.advanceTime).x = s.x := rfl
@[simp] theorem State.advanceTime_pc (s : State) : (s.advanceTime).pc = s.pc := rfl
@[simp] theorem State.advanceTime_f (s : State) : (s.advanceTime).f = s.f := rfl
@[simp] theorem State.advanceTime_fflags (s : State) : (s.advanceTime).fflags = s.fflags := rfl
@[simp] theorem State.advanceTime_frm (s : State) : (s.advanceTime).frm = s.frm := rfl
@[simp] theorem State.advanceTime_priv (s : State) : (s.advanceTime).priv = s.priv := rfl
@[simp] theorem State.advanceTime_csr (s : State) : (s.advanceTime).csr = s.csr := rfl
@[simp] theorem State.advanceTime_resv (s : State) : (s.advanceTime).resv = s.resv := rfl
@[simp] theorem State.advanceTime_waiting (s : State) : (s.advanceTime).waiting = s.waiting := rfl
@[simp] theorem State.advanceTime_mem (s : State) : (s.advanceTime).mem = s.mem := rfl
@[simp] theorem State.advanceTime_lines (s : State) : (s.advanceTime).lines = s.lines := rfl
@[simp] theorem State.advanceTime_env (s : State) : (s.advanceTime).env = s.env := rfl
@[simp] theorem State.advanceTime_draws (s : State) : (s.advanceTime).draws = s.draws := rfl

/-! ### `redraw` -/

@[simp] theorem State.redraw_cfg (s : State) : (s.redraw).cfg = s.cfg := rfl
@[simp] theorem State.redraw_x (s : State) : (s.redraw).x = s.x := rfl
@[simp] theorem State.redraw_pc (s : State) : (s.redraw).pc = s.pc := rfl
@[simp] theorem State.redraw_f (s : State) : (s.redraw).f = s.f := rfl
@[simp] theorem State.redraw_fflags (s : State) : (s.redraw).fflags = s.fflags := rfl
@[simp] theorem State.redraw_frm (s : State) : (s.redraw).frm = s.frm := rfl
@[simp] theorem State.redraw_priv (s : State) : (s.redraw).priv = s.priv := rfl
@[simp] theorem State.redraw_csr (s : State) : (s.redraw).csr = s.csr := rfl
@[simp] theorem State.redraw_resv (s : State) : (s.redraw).resv = s.resv := rfl
@[simp] theorem State.redraw_waiting (s : State) : (s.redraw).waiting = s.waiting := rfl
@[simp] theorem State.redraw_mem (s : State) : (s.redraw).mem = s.mem := rfl
@[simp] theorem State.redraw_clint (s : State) : (s.redraw).clint = s.clint := rfl
@[simp] theorem State.redraw_lines (s : State) : (s.redraw).lines = s.lines := rfl
@[simp] theorem State.redraw_env (s : State) : (s.redraw).env = s.env := rfl

/-! ### `tick` -/

@[simp] theorem State.tick_cfg (s : State) : (s.tick).cfg = s.cfg := by simp [State.tick]
@[simp] theorem State.tick_x (s : State) : (s.tick).x = s.x := by simp [State.tick]
@[simp] theorem State.tick_pc (s : State) : (s.tick).pc = s.pc := by simp [State.tick]
@[simp] theorem State.tick_f (s : State) : (s.tick).f = s.f := by simp [State.tick]
@[simp] theorem State.tick_fflags (s : State) : (s.tick).fflags = s.fflags := by simp [State.tick]
@[simp] theorem State.tick_frm (s : State) : (s.tick).frm = s.frm := by simp [State.tick]
@[simp] theorem State.tick_priv (s : State) : (s.tick).priv = s.priv := by simp [State.tick]
@[simp] theorem State.tick_resv (s : State) : (s.tick).resv = s.resv := by simp [State.tick]
@[simp] theorem State.tick_waiting (s : State) : (s.tick).waiting = s.waiting := by simp [State.tick]
@[simp] theorem State.tick_mem (s : State) : (s.tick).mem = s.mem := by simp [State.tick]
@[simp] theorem State.tick_lines (s : State) : (s.tick).lines = s.lines := by simp [State.tick]
@[simp] theorem State.tick_env (s : State) : (s.tick).env = s.env := by simp [State.tick]
@[simp] theorem State.tick_csr_mstatus (s : State) : (s.tick).csr.mstatus = s.csr.mstatus := by simp [State.tick]
@[simp] theorem State.tick_csr_medeleg (s : State) : (s.tick).csr.medeleg = s.csr.medeleg := by simp [State.tick]
@[simp] theorem State.tick_csr_mideleg (s : State) : (s.tick).csr.mideleg = s.csr.mideleg := by simp [State.tick]
@[simp] theorem State.tick_csr_mie (s : State) : (s.tick).csr.mie = s.csr.mie := by simp [State.tick]
@[simp] theorem State.tick_csr_ssip (s : State) : (s.tick).csr.ssip = s.csr.ssip := by simp [State.tick]
@[simp] theorem State.tick_csr_stip (s : State) : (s.tick).csr.stip = s.csr.stip := by simp [State.tick]
@[simp] theorem State.tick_csr_seip (s : State) : (s.tick).csr.seip = s.csr.seip := by simp [State.tick]
@[simp] theorem State.tick_csr_mtvec (s : State) : (s.tick).csr.mtvec = s.csr.mtvec := by simp [State.tick]
@[simp] theorem State.tick_csr_stvec (s : State) : (s.tick).csr.stvec = s.csr.stvec := by simp [State.tick]
@[simp] theorem State.tick_csr_mscratch (s : State) : (s.tick).csr.mscratch = s.csr.mscratch := by simp [State.tick]
@[simp] theorem State.tick_csr_sscratch (s : State) : (s.tick).csr.sscratch = s.csr.sscratch := by simp [State.tick]
@[simp] theorem State.tick_csr_mepc (s : State) : (s.tick).csr.mepc = s.csr.mepc := by simp [State.tick]
@[simp] theorem State.tick_csr_sepc (s : State) : (s.tick).csr.sepc = s.csr.sepc := by simp [State.tick]
@[simp] theorem State.tick_csr_mcause (s : State) : (s.tick).csr.mcause = s.csr.mcause := by simp [State.tick]
@[simp] theorem State.tick_csr_scause (s : State) : (s.tick).csr.scause = s.csr.scause := by simp [State.tick]
@[simp] theorem State.tick_csr_mtval (s : State) : (s.tick).csr.mtval = s.csr.mtval := by simp [State.tick]
@[simp] theorem State.tick_csr_stval (s : State) : (s.tick).csr.stval = s.csr.stval := by simp [State.tick]
@[simp] theorem State.tick_csr_satp (s : State) : (s.tick).csr.satp = s.csr.satp := by simp [State.tick]
@[simp] theorem State.tick_csr_mcounteren (s : State) : (s.tick).csr.mcounteren = s.csr.mcounteren := by simp [State.tick]
@[simp] theorem State.tick_csr_scounteren (s : State) : (s.tick).csr.scounteren = s.csr.scounteren := by simp [State.tick]
@[simp] theorem State.tick_csr_mcountinhibit (s : State) : (s.tick).csr.mcountinhibit = s.csr.mcountinhibit := by simp [State.tick]
@[simp] theorem State.tick_csr_minstret (s : State) : (s.tick).csr.minstret = s.csr.minstret := by simp [State.tick]
@[simp] theorem State.tick_csr_jvt (s : State) : (s.tick).csr.jvt = s.csr.jvt := by simp [State.tick]

/-! ### `tickWaiting` -/

@[simp] theorem State.tickWaiting_cfg (s : State) : (s.tickWaiting).cfg = s.cfg := by simp [State.tickWaiting]
@[simp] theorem State.tickWaiting_x (s : State) : (s.tickWaiting).x = s.x := by simp [State.tickWaiting]
@[simp] theorem State.tickWaiting_pc (s : State) : (s.tickWaiting).pc = s.pc := by simp [State.tickWaiting]
@[simp] theorem State.tickWaiting_f (s : State) : (s.tickWaiting).f = s.f := by simp [State.tickWaiting]
@[simp] theorem State.tickWaiting_fflags (s : State) : (s.tickWaiting).fflags = s.fflags := by simp [State.tickWaiting]
@[simp] theorem State.tickWaiting_frm (s : State) : (s.tickWaiting).frm = s.frm := by simp [State.tickWaiting]
@[simp] theorem State.tickWaiting_priv (s : State) : (s.tickWaiting).priv = s.priv := by simp [State.tickWaiting]
@[simp] theorem State.tickWaiting_csr (s : State) : (s.tickWaiting).csr = s.csr := by simp [State.tickWaiting]
@[simp] theorem State.tickWaiting_resv (s : State) : (s.tickWaiting).resv = s.resv := by simp [State.tickWaiting]
@[simp] theorem State.tickWaiting_waiting (s : State) : (s.tickWaiting).waiting = s.waiting := by simp [State.tickWaiting]
@[simp] theorem State.tickWaiting_mem (s : State) : (s.tickWaiting).mem = s.mem := by simp [State.tickWaiting]
@[simp] theorem State.tickWaiting_lines (s : State) : (s.tickWaiting).lines = s.lines := by simp [State.tickWaiting]
@[simp] theorem State.tickWaiting_env (s : State) : (s.tickWaiting).env = s.env := by simp [State.tickWaiting]

/-! ### `sample` -/

@[simp] theorem State.sample_cfg (s : State) : (s.sample).cfg = s.cfg := by unfold State.sample; split <;> rfl
@[simp] theorem State.sample_x (s : State) : (s.sample).x = s.x := by unfold State.sample; split <;> rfl
@[simp] theorem State.sample_pc (s : State) : (s.sample).pc = s.pc := by unfold State.sample; split <;> rfl
@[simp] theorem State.sample_f (s : State) : (s.sample).f = s.f := by unfold State.sample; split <;> rfl
@[simp] theorem State.sample_fflags (s : State) : (s.sample).fflags = s.fflags := by unfold State.sample; split <;> rfl
@[simp] theorem State.sample_frm (s : State) : (s.sample).frm = s.frm := by unfold State.sample; split <;> rfl
@[simp] theorem State.sample_priv (s : State) : (s.sample).priv = s.priv := by unfold State.sample; split <;> rfl
@[simp] theorem State.sample_csr (s : State) : (s.sample).csr = s.csr := by unfold State.sample; split <;> rfl
@[simp] theorem State.sample_resv (s : State) : (s.sample).resv = s.resv := by unfold State.sample; split <;> rfl
@[simp] theorem State.sample_waiting (s : State) : (s.sample).waiting = s.waiting := by unfold State.sample; split <;> rfl
@[simp] theorem State.sample_mem (s : State) : (s.sample).mem = s.mem := by unfold State.sample; split <;> rfl
@[simp] theorem State.sample_clint (s : State) : (s.sample).clint = s.clint := by unfold State.sample; split <;> rfl
@[simp] theorem State.sample_draws (s : State) : (s.sample).draws = s.draws := by unfold State.sample; split <;> rfl

/-! ### Values -/

@[simp] theorem State.wf_fs (s : State) (r : Reg) (v : Word) : (s.wf r v).csr.mstatus = { s.csr.mstatus with fs := 3 } := rfl

@[simp] theorem State.setMStatus_mstatus (s : State) (ms : MStatus) : (s.setMStatus ms).csr.mstatus = ms := rfl

@[simp] theorem State.take_resv (s : State) (e : Exc) (tval : Word) : (s.take e tval).resv = none := by
  unfold State.take; split <;> rfl

@[simp] theorem State.take_waiting (s : State) (e : Exc) (tval : Word) : (s.take e tval).waiting = false := by
  unfold State.take; split <;> rfl

@[simp] theorem State.tick_draws (s : State) : s.tick.draws = s.draws + 1 := by simp [State.tick, State.redraw]

@[simp] theorem State.rx_zero (s : State) : s.rx 0#5 = 0 := by simp [State.rx]

/-- Reading an integer register depends on the register file alone. -/
theorem State.rx_congr (s t : State) (h : t.x = s.x) (r : Reg) : t.rx r = s.rx r := by simp only [State.rx, h]

/-- Reading a floating-point register depends on the register file alone. -/
theorem State.rf_congr (s t : State) (h : t.f = s.f) (r : Reg) : t.rf r = s.rf r := by simp only [State.rf, h]

/-- Reading an integer register after a write (10_state.md R40). -/
theorem State.rx_wx (s : State) (r k : Reg) (v : Word) :
    (s.wx r v).rx k = if k = r ∧ k ≠ 0#5 then s.cfg.norm v else s.rx k := by
  unfold State.wx State.rx
  by_cases hr : r = 0#5
  · simp only [hr, if_true]; by_cases hk : k = 0#5 <;> simp [hk]
  · by_cases hk : k = 0#5
    · simp [hk]
    · by_cases h : k = r
      · subst h; simp [hk]
      · have : r.toNat ≠ k.toNat := fun e => h (BitVec.eq_of_toNat_eq e.symm)
        simp [hr, hk, h, this]

/-- Reading a floating-point register after a write (10_state.md R47). -/
theorem State.rf_wf (s : State) (r k : Reg) (v : Word) :
    (s.wf r v).rf k = if k = r then s.cfg.fnorm v else s.rf k := by
  unfold State.wf State.rf
  by_cases h : k = r
  · subst h; simp
  · have : r.toNat ≠ k.toNat := fun e => h (BitVec.eq_of_toNat_eq e.symm)
    simp [h, this]

@[simp] theorem State.rf_wx (s : State) (r k : Reg) (v : Word) : (s.wx r v).rf k = s.rf k :=
  State.rf_congr _ _ (by simp) k

@[simp] theorem State.rx_wf (s : State) (r k : Reg) (v : Word) : (s.wf r v).rx k = s.rx k :=
  State.rx_congr _ _ (by simp) k

@[simp] theorem State.rx_count (s : State) (k : Reg) : s.count.rx k = s.rx k := State.rx_congr _ _ (by simp) k

@[simp] theorem State.rf_count (s : State) (k : Reg) : s.count.rf k = s.rf k := State.rf_congr _ _ (by simp) k

@[simp] theorem State.rx_accrue (s : State) (fl : Flags) (k : Reg) : (s.accrue fl).rx k = s.rx k :=
  State.rx_congr _ _ (by simp) k

@[simp] theorem State.rf_accrue (s : State) (fl : Flags) (k : Reg) : (s.accrue fl).rf k = s.rf k :=
  State.rf_congr _ _ (by simp) k

@[simp] theorem State.rx_physWrite (s : State) (pa n : Nat) (v : Word) (k : Reg) : (s.physWrite pa n v).rx k = s.rx k :=
  State.rx_congr _ _ (by simp) k

@[simp] theorem State.rf_physWrite (s : State) (pa n : Nat) (v : Word) (k : Reg) : (s.physWrite pa n v).rf k = s.rf k :=
  State.rf_congr _ _ (by simp) k

/-- `minstret` after an instruction retires (10_state.md R80). -/
@[simp] theorem State.count_minstret (s : State) : s.count.csr.minstret = s.retired := by
  unfold State.count State.retired; split <;> rfl

/-- The flags after an accrual (44_fd.md R394). -/
@[simp] theorem State.accrue_fflags (s : State) (fl : Flags) : (s.accrue fl).fflags = s.fflags ||| fl := by
  unfold State.accrue
  split
  · rename_i h; subst h; simp
  · rfl

/-- `mstatus` after an accrual (44_fd.md R395). -/
@[simp] theorem State.accrue_mstatus (s : State) (fl : Flags) :
    (s.accrue fl).csr.mstatus = if fl = 0 then s.csr.mstatus else { s.csr.mstatus with fs := 3 } := by
  unfold State.accrue; split <;> rfl

end Sys2Proof.Machine
end

