-- ==== Sys2Proof/Laws/Memory.lean ====
section
/-! SUPPORT. Memory: what one byte reads as after a write of one byte, and that every operation keeps the canonical form. -/

namespace Sys2Proof.Machine

open Sys2Proof

/-! ### One byte -/

theorem memGet_filter (m : List Host.Cell) (a b : Nat) :
    memGet (m.filter (fun c => c.1 != a)) b = if b = a then unlistedByte else memGet m b := by
  induction m with
  | nil => simp [memGet]
  | cons c m ih =>
    obtain ⟨d, w⟩ := c
    by_cases hd : d = a
    · subst hd
      rw [List.filter_cons_of_neg (by simp), ih]
      by_cases h : b = d <;> simp [memGet, h]
    · rw [List.filter_cons_of_pos (by simp [hd])]
      simp only [memGet, ih]
      by_cases h : b = d
      · subst h; simp [hd]
      · simp [h]

theorem memGet_memInsert (m : List Host.Cell) (a b : Nat) (v : Byte) (h : b ≠ a ∨ ∀ c ∈ m, c.1 ≠ a) :
    memGet (memInsert m a v) b = if b = a then v else memGet m b := by
  induction m with
  | nil => simp [memInsert, memGet]
  | cons c m ih =>
    obtain ⟨d, w⟩ := c
    unfold memInsert
    split
    · simp [memGet]
    · have h' : b ≠ a ∨ ∀ c ∈ m, c.1 ≠ a := h.imp id fun h c hc => h c (List.mem_cons_of_mem _ hc)
      simp only [memGet, ih h']
      by_cases hb : b = d
      · subst hb
        have : b ≠ a := h.elim id fun h => h (b, w) List.mem_cons_self
        simp [this]
      · simp [hb]

/-- A byte reads as what was last written to it, and a write to another byte does not change it. -/
@[simp] theorem memGet_memSet (m : List Host.Cell) (a b : Nat) (v : Byte) :
    memGet (memSet m a v) b = if b = a then v else memGet m b := by
  unfold memSet
  split
  · rename_i h
    rw [memGet_filter, h]
  · rw [memGet_memInsert _ _ _ _ (Or.inr (by intro c hc; simpa using (List.mem_filter.1 hc).2)), memGet_filter]
    split <;> rfl

theorem memGet_memSet_self (m : List Host.Cell) (a : Nat) (v : Byte) : memGet (memSet m a v) a = v := by simp

theorem memGet_memSet_ne (m : List Host.Cell) {a b : Nat} (v : Byte) (h : b ≠ a) : memGet (memSet m a v) b = memGet m b := by
  simp [h]

/-! ### The canonical form -/

theorem Memory.wf_nil : Memory.wf [] := ⟨List.Pairwise.nil, by simp⟩

theorem Memory.wf_filter {m : List Host.Cell} (h : Memory.wf m) (p : Host.Cell → Bool) : Memory.wf (m.filter p) :=
  ⟨h.1.filter p, fun c hc => h.2 c (List.mem_filter.1 hc).1⟩

theorem mem_memInsert {m : List Host.Cell} {a : Nat} {v : Byte} {c : Host.Cell} :
    c ∈ memInsert m a v ↔ c = (a, v) ∨ c ∈ m := by
  induction m with
  | nil => simp [memInsert]
  | cons d m ih =>
    obtain ⟨d, w⟩ := d
    unfold memInsert
    split
    · simp
    · simp only [List.mem_cons, ih]; tauto

theorem Memory.wf_memInsert {m : List Host.Cell} {a : Nat} {v : Byte} (h : Memory.wf m) (ha : ∀ c ∈ m, c.1 ≠ a)
    (hv : v ≠ unlistedByte) : Memory.wf (memInsert m a v) := by
  refine ⟨?_, fun c hc => (mem_memInsert.1 hc).elim (fun e => e ▸ hv) (h.2 c)⟩
  induction m with
  | nil => simp [memInsert]
  | cons d m ih =>
    obtain ⟨d, w⟩ := d
    have hd := List.pairwise_cons.1 h.1
    unfold memInsert
    split
    · rename_i hle
      have hlt : a < d := lt_of_le_of_ne hle fun e => ha (d, w) List.mem_cons_self e.symm
      refine List.pairwise_cons.2 ⟨fun c hc => ?_, h.1⟩
      rcases List.mem_cons.1 hc with rfl | hc
      · exact hlt
      · exact hlt.trans (hd.1 c hc)
    · rename_i hle
      refine List.pairwise_cons.2 ⟨fun c hc => ?_, ih ⟨hd.2, fun c hc => h.2 c (List.mem_cons_of_mem _ hc)⟩
        fun c hc => ha c (List.mem_cons_of_mem _ hc)⟩
      rcases mem_memInsert.1 hc with rfl | hc
      · exact not_le.1 hle
      · exact hd.1 c hc

/-- A write of one byte keeps the canonical form. -/
theorem Memory.wf_memSet {m : List Host.Cell} (h : Memory.wf m) (a : Nat) (v : Byte) : Memory.wf (memSet m a v) := by
  unfold memSet
  have hf := Memory.wf_filter h (fun c => c.1 != a)
  split
  · exact hf
  · rename_i hv
    exact Memory.wf_memInsert hf (by intro c hc; simpa using (List.mem_filter.1 hc).2) hv

/-- A write of `n` bytes keeps the canonical form. -/
theorem Memory.wf_memWrite {m : List Host.Cell} (h : Memory.wf m) (a n : Nat) (v : Word) :
    Memory.wf (memWrite m a n v) := by
  induction n generalizing m a v with
  | zero => exact h
  | succ n ih => exact ih (Memory.wf_memSet h _ _) _ _

/-- A physical write keeps the canonical form. -/
theorem Memory.wf_physWrite {s : State} (h : Memory.wf s.mem) (pa n : Nat) (v : Word) :
    Memory.wf (s.physWrite pa n v).mem := by
  unfold State.physWrite
  split
  · split <;> exact h
  · split
    · exact Memory.wf_memWrite h _ _ _
    · exact h

/-- The state a store answers with, whether it completes or fails: `write` is written or is as it was. -/
def written : Except (Exc × Word × State) State → State
  | .ok t => t
  | .error (_, _, t) => t

theorem Memory.wf_writeSplit {s : State} (h : Memory.wf s.mem) (k : Access) (va v : Word) (order : List Nat) :
    Memory.wf (written (State.writeSplit k va v order s)).mem := by
  induction order generalizing s with
  | nil => exact h
  | cons i order ih =>
    simp only [State.writeSplit]
    split
    · exact h
    · exact ih (Memory.wf_physWrite h _ _ _)

/-- A store keeps the canonical form, whether it completes or fails. -/
theorem Memory.wf_write {s : State} (h : Memory.wf s.mem) (k : Access) (va : Word) (n : Nat) (v : Word) :
    Memory.wf (written (s.write k va n v)).mem := by
  unfold State.write
  split
  · split
    · exact h
    · exact Memory.wf_writeSplit h _ _ _ _
  · split
    · exact h
    · exact Memory.wf_physWrite h _ _ _

/-- The stores of a push keep the canonical form, whether they complete or fail. -/
theorem Memory.wf_pushAll {s : State} (h : Memory.wf s.mem) (l : List Reg) (addr : Word) :
    Memory.wf (written (pushAll l addr s)).mem := by
  induction l generalizing s addr with
  | nil => exact h
  | cons r l ih =>
    simp only [pushAll]
    have hw := Memory.wf_write h .push addr s.cfg.xlen.bytes (s.rx r)
    split
    · rename_i heq; rw [heq] at hw; exact hw
    · rename_i heq; rw [heq] at hw; exact ih hw _

/-- Reset's memory has the canonical form. -/
theorem Memory.wf_reset (c : Config) : Memory.wf (State.resetWith c).mem := Memory.wf_nil

end Sys2Proof.Machine
end

