-- ==== Sys2Proof/Laws/Values.lean ====
section
/-! SUPPORT. Values of width XLEN as numbers: what `norm`, `sx`, `word` and `word32` compute. -/

namespace Sys2Proof

namespace Config

theorem norm_toNat (c : Config) (w : Word) : (c.norm w).toNat = w.toNat % 2 ^ c.xlen.bits := by
  unfold norm Xlen.bits
  cases c.xlen
  · simp only [BitVec.toNat_setWidth]; omega
  · exact (Nat.mod_eq_of_lt w.isLt).symm

theorem word_toNat (c : Config) (i : Int) : ((c.word i).toNat : Int) = i % 2 ^ c.xlen.bits := by
  unfold word
  have h0 : 0 ≤ i % 2 ^ c.xlen.bits := Int.emod_nonneg _ (by cases c.xlen <;> decide)
  have h1 : i % 2 ^ c.xlen.bits < 2 ^ c.xlen.bits := Int.emod_lt_of_pos _ (by cases c.xlen <;> decide)
  have h2 : (2 : Int) ^ c.xlen.bits ≤ 2 ^ 64 := by cases c.xlen <;> decide
  have h3 : (i % 2 ^ c.xlen.bits).toNat < 2 ^ 64 := by
    generalize (2 : Int) ^ c.xlen.bits = m at *
    omega
  rw [BitVec.toNat_ofNat, Nat.mod_eq_of_lt h3, Int.toNat_of_nonneg h0]

/-- Narrowing keeps the number modulo 2^XLEN. -/
theorem norm_ofInt (c : Config) (i : Int) : c.norm (BitVec.ofInt 64 i) = c.word i := by
  apply BitVec.eq_of_toNat_eq
  have h := c.word_toNat i
  have h2 := c.norm_toNat (BitVec.ofInt 64 i)
  have h3 : ((BitVec.ofInt 64 i).toNat : Int) = i % 2 ^ 64 := by
    rw [BitVec.toNat_ofInt]; exact Int.toNat_of_nonneg (Int.emod_nonneg _ (by decide))
  have : ((c.norm (BitVec.ofInt 64 i)).toNat : Int) = ((c.word i).toNat : Int) := by
    rw [h, h2]; push_cast; rw [h3]
    cases c.xlen <;> simp only [Xlen.bits] <;> omega
  exact_mod_cast this

/-- Narrowing keeps the number modulo 2^XLEN. -/
theorem norm_eq_word (c : Config) (w : Word) : c.norm w = c.word w.toNat := by
  rw [← norm_ofInt, BitVec.ofInt_natCast, BitVec.ofNat_toNat, BitVec.setWidth_eq]

@[simp] theorem norm_norm (c : Config) (w : Word) : c.norm (c.norm w) = c.norm w := by
  apply BitVec.eq_of_toNat_eq; rw [norm_toNat, norm_toNat, Nat.mod_mod]

@[simp] theorem norm_word (c : Config) (i : Int) : c.norm (c.word i) = c.word i := by
  rw [← norm_ofInt, norm_norm]

/-- Numbers that agree modulo 2^XLEN name the same value. -/
theorem word_congr (c : Config) {i j : Int} (h : i % 2 ^ c.xlen.bits = j % 2 ^ c.xlen.bits) : c.word i = c.word j := by
  unfold word; rw [h]

theorem word_toU (c : Config) (w : Word) : c.word (c.toU w) = c.norm w := by
  rw [← norm_norm, norm_eq_word c (c.norm w)]; rfl

theorem toU_lt (c : Config) (w : Word) : c.toU w < 2 ^ c.xlen.bits := by
  unfold toU; rw [norm_toNat]; exact Nat.mod_lt _ (by cases c.xlen <;> decide)

theorem toU_eq (c : Config) (w : Word) : c.toU w = w.toNat % 2 ^ c.xlen.bits := norm_toNat c w

theorem toS_eq (c : Config) (w : Word) : c.toS w = (w.toNat : Int).bmod (2 ^ c.xlen.bits) := by
  unfold toS sx Xlen.bits
  cases c.xlen
  · simp only
    rw [BitVec.toInt_signExtend_of_le (by decide), BitVec.toInt_eq_toNat_bmod, BitVec.toNat_setWidth]
    push_cast
    exact Int.emod_bmod ..
  · exact BitVec.toInt_eq_toNat_bmod w

theorem toS_emod (c : Config) (w : Word) : c.toS w % 2 ^ c.xlen.bits = (w.toNat : Int) % 2 ^ c.xlen.bits := by
  rw [toS_eq]; exact_mod_cast Int.bmod_emod ..

theorem word_toS (c : Config) (w : Word) : c.word (c.toS w) = c.norm w := by
  rw [norm_eq_word]; exact c.word_congr (c.toS_emod w)

theorem norm_getLsbD (c : Config) (w : Word) (k : Nat) :
    (c.norm w).getLsbD k = (decide (k < c.xlen.bits) && w.getLsbD k) := by
  unfold norm Xlen.bits
  cases c.xlen
  · simp only [BitVec.getLsbD_setWidth]
    by_cases h : k < 32
    · simp [h, show k < 64 by omega]
    · simp [h]
  · simp only
    by_cases h : k < 64
    · simp [h]
    · simp [h, BitVec.getLsbD_of_ge w k (by omega)]

/-- What a value names modulo 2^XLEN. -/
theorem norm_of_modEq (c : Config) {v : Word} {i j : Int} (hv : v = BitVec.ofInt 64 i) (h : i ≡ j [ZMOD 2 ^ c.xlen.bits]) :
    c.norm v = c.word j := by rw [hv, norm_ofInt]; exact c.word_congr h

theorem toU_modEq (c : Config) (w : Word) : (w.toNat : Int) ≡ c.toU w [ZMOD 2 ^ c.xlen.bits] := by
  rw [toU_eq]; push_cast; exact (Int.mod_modEq _ _).symm

theorem toS_modEq (c : Config) (w : Word) : (w.toNat : Int) ≡ c.toS w [ZMOD 2 ^ c.xlen.bits] := (c.toS_emod w).symm

/-- A value is the number its bits name. -/
theorem eq_ofInt (w : Word) : w = BitVec.ofInt 64 w.toNat := by
  rw [BitVec.ofInt_natCast, BitVec.ofNat_toNat, BitVec.setWidth_eq]

/-- A value is the signed number its bits name. -/
theorem eq_ofInt_toInt (w : Word) : w = BitVec.ofInt 64 w.toInt := by rw [BitVec.ofInt_toInt]

theorem modEq_xlen (c : Config) {i j : Int} (h : i ≡ j [ZMOD 2 ^ 64]) : i ≡ j [ZMOD 2 ^ c.xlen.bits] :=
  h.of_dvd (by cases c.xlen <;> decide)

theorem norm_of_toNat (c : Config) {v : Word} {j : Int} (h : (v.toNat : Int) ≡ j [ZMOD 2 ^ c.xlen.bits]) :
    c.norm v = c.word j := c.norm_of_modEq (eq_ofInt v) h

theorem norm_shiftLeft (c : Config) (w : Word) (n : Nat) : c.norm (w <<< n) = c.word (c.toU w * 2 ^ n) := by
  apply norm_of_toNat
  rw [BitVec.toNat_shiftLeft, Nat.shiftLeft_eq]
  push_cast
  exact (c.modEq_xlen (Int.mod_modEq _ _)).trans ((c.toU_modEq w).mul_right _)

theorem norm_srl (c : Config) (w : Word) (n : Nat) : c.norm (c.srl w n) = c.word (c.toU w / 2 ^ n) := by
  apply norm_of_toNat
  unfold srl toU
  rw [BitVec.toNat_ushiftRight, Nat.shiftRight_eq_div_pow]
  push_cast
  rfl

theorem norm_sra (c : Config) (w : Word) (n : Nat) : c.norm (c.sra w n) = c.word (c.toS w / 2 ^ n) := by
  refine c.norm_of_modEq (eq_ofInt_toInt _) ?_
  unfold sra toS
  rw [BitVec.toInt_sshiftRight, Int.shiftRight_eq_div_pow]
  exact Int.ModEq.refl _

theorem shiftAmount_eq (c : Config) (w : Word) : c.shiftAmount w = c.toU w % c.xlen.bits := by
  rw [toU_eq]
  unfold shiftAmount Xlen.bits
  cases c.xlen <;> simp only [BitVec.toNat_setWidth] <;> omega

theorem toS_small (c : Config) (i : Int) (h : -2 ^ 31 ≤ i ∧ i < 2 ^ 31) : c.toS (BitVec.ofInt 64 i) = i := by
  have h3 : ((BitVec.ofInt 64 i).toNat : Int) = i % 2 ^ 64 := by
    rw [BitVec.toNat_ofInt]; exact Int.toNat_of_nonneg (Int.emod_nonneg _ (by decide))
  rw [toS_eq, h3]
  cases c.xlen <;> simp only [Xlen.bits] <;> rw [Int.bmod_def] <;> split <;> omega

theorem toU_ofInt (c : Config) (i : Int) : (c.toU (BitVec.ofInt 64 i) : Int) = i % 2 ^ c.xlen.bits := by
  have h3 : ((BitVec.ofInt 64 i).toNat : Int) = i % 2 ^ 64 := by
    rw [BitVec.toNat_ofInt]; exact Int.toNat_of_nonneg (Int.emod_nonneg _ (by decide))
  rw [toU_eq]; push_cast; rw [h3]
  cases c.xlen <;> simp only [Xlen.bits] <;> omega

theorem ltS_eq (c : Config) (a b : Word) : c.ltS a b = decide (c.toS a < c.toS b) := rfl

theorem ltU_eq (c : Config) (a b : Word) : c.ltU a b = decide (c.toU a < c.toU b) := rfl

theorem norm_boolWord (c : Config) (b : Bool) : c.norm (boolWord b) = if b then 1 else 0 := by
  unfold norm boolWord; split <;> split <;> rfl

theorem norm_bool (c : Config) (b : Prop) [Decidable b] : c.norm (if b then 1 else 0) = if b then 1 else 0 := by
  unfold norm; split <;> split <;> rfl

/-- A narrowed value is its bits. -/
theorem hasBits_norm (c : Config) (w : Word) : HasBits c (c.norm w) w.getLsbD := fun k => c.norm_getLsbD w k

/-- The bits of a narrowed value, given below XLEN. -/
theorem hasBits_of (c : Config) (w : Word) (f : Nat → Bool) (h : ∀ k, k < c.xlen.bits → w.getLsbD k = f k) :
    HasBits c (c.norm w) f := by
  intro k
  rw [norm_getLsbD]
  by_cases hk : k < c.xlen.bits
  · simp [hk, h k hk]
  · simp [hk]

theorem xlen_le (c : Config) : c.xlen.bits ≤ 64 := by cases c.xlen <;> decide

end Config

theorem imm12_eq (i : BitVec 12) : imm12 i = BitVec.ofInt 64 i.toInt := rfl

theorem imm12_getLsbD (i : BitVec 12) (k : Nat) (h : k < 64) : (imm12 i).getLsbD k = i.getLsbD (min k 11) := by
  unfold imm12
  rw [BitVec.getLsbD_signExtend]
  by_cases hk : k < 12
  · simp [h, hk, Nat.min_eq_left (by omega : k ≤ 11)]
  · simp [h, hk, Nat.min_eq_right (by omega : 11 ≤ k), BitVec.msb_eq_getLsbD_last]

/-- An immediate with `n` zero bits below it, sign-extended. -/
theorem signExtend_append_zero {m : Nat} (i : BitVec m) (n : Nat) :
    (i ++ 0#n).toInt = i.toInt * 2 ^ n := by
  have h : (i ++ 0#n).toNat = i.toNat * 2 ^ n := by
    rw [BitVec.toNat_append]; simp [Nat.shiftLeft_eq]
  rw [BitVec.toInt_eq_toNat_cond, BitVec.toInt_eq_toNat_cond, h]
  have e : (2 : Nat) ^ (m + n) = 2 ^ m * 2 ^ n := Nat.pow_add ..
  rw [e]
  have hp : 0 < (2 : Nat) ^ n := Nat.pow_pos (by decide)
  have : (2 * (i.toNat * 2 ^ n) < 2 ^ m * 2 ^ n) ↔ 2 * i.toNat < 2 ^ m := by
    rw [← Nat.mul_assoc, Nat.mul_lt_mul_right hp]
  by_cases hc : 2 * i.toNat < 2 ^ m
  · rw [if_pos hc, if_pos (this.2 hc)]; push_cast; ring
  · rw [if_neg hc, if_neg (fun x => hc (this.1 x))]; push_cast; ring

theorem immU_eq (i : BitVec 20) : immU i = BitVec.ofInt 64 (i.toInt * 4096) := by
  unfold immU BitVec.signExtend; rw [signExtend_append_zero i 12]; rfl

theorem immB_eq (i : BitVec 12) : immB i = BitVec.ofInt 64 (i.toInt * 2) := by
  unfold immB BitVec.signExtend; rw [signExtend_append_zero i 1]; rfl

theorem immJ_eq (i : BitVec 20) : immJ i = BitVec.ofInt 64 (i.toInt * 2) := by
  unfold immJ BitVec.signExtend; rw [signExtend_append_zero i 1]; rfl

theorem immCJ_eq (i : BitVec 11) : immCJ i = BitVec.ofInt 64 (i.toInt * 2) := by
  unfold immCJ BitVec.signExtend; rw [signExtend_append_zero i 1]; rfl

theorem immCB_eq (i : BitVec 8) : immCB i = BitVec.ofInt 64 (i.toInt * 2) := by
  unfold immCB BitVec.signExtend; rw [signExtend_append_zero i 1]; rfl

theorem imm16sp_eq (i : BitVec 6) : imm16sp i = BitVec.ofInt 64 (i.toInt * 16) := by
  unfold imm16sp BitVec.signExtend; rw [signExtend_append_zero i 4]; rfl

theorem immCLui_eq (i : BitVec 6) : immCLui i = BitVec.ofInt 64 (i.toInt * 4096) := by
  unfold immCLui BitVec.signExtend; rw [signExtend_append_zero i 12]; rfl

theorem imm6_eq (i : BitVec 6) : imm6 i = BitVec.ofInt 64 i.toInt := rfl

theorem word32_ofInt32 (i : Int) : word32 i = (BitVec.ofInt 32 i).signExtend 64 := by
  unfold word32
  apply BitVec.eq_of_toInt_eq
  rw [BitVec.toInt_signExtend_of_le (by decide), BitVec.toInt_ofInt, BitVec.toInt_ofInt]
  have h1 := Int.le_bmod (x := i) (m := 2 ^ 32) (by decide)
  have h2 := Int.bmod_lt (x := i) (m := 2 ^ 32) (by decide)
  generalize i.bmod (2 ^ 32) = v at *
  rw [Int.bmod_eq_of_le] <;> omega

theorem sext32_eq (w : Word) : sext32 w = word32 w.toNat := by
  rw [word32_ofInt32]
  unfold sext32
  congr 1

/-- Numbers that agree modulo 2^32 name the same sign-extended word. -/
theorem word32_congr {i j : Int} (h : i % 2 ^ 32 = j % 2 ^ 32) : word32 i = word32 j := by
  rw [word32_ofInt32, word32_ofInt32]
  congr 1
  apply BitVec.eq_of_toNat_eq
  rw [BitVec.toNat_ofInt, BitVec.toNat_ofInt]
  exact congrArg Int.toNat h

/-- A 32-bit value sign-extended. -/
theorem signExtend32_eq (w : BitVec 32) : w.signExtend 64 = word32 w.toNat := by
  have := sext32_eq (w.setWidth 64)
  unfold sext32 at this
  rw [BitVec.setWidth_setWidth_of_le _ (by decide), BitVec.setWidth_eq] at this
  rw [this]; apply word32_congr; simp

end Sys2Proof
end

