-- ==== Sys2Proof/Laws/Shapes.lean ====
section
/-! SUPPORT. One lemma for each instruction shape: everything the shape can do. -/

namespace Sys2Proof.Machine

open Sys2Proof

theorem State.after_eq (s : State) (n : Nat) : s.after n = s.nextPc n := by
  unfold State.after State.nextPc
  have : s.pc + BitVec.ofNat 64 n = BitVec.ofInt 64 (s.pc.toNat + n) := by
    rw [BitVec.ofInt_add, BitVec.ofInt_natCast, BitVec.ofInt_natCast, BitVec.ofNat_toNat, BitVec.setWidth_eq]
  rw [this, Config.norm_ofInt]

@[simp] theorem State.after_wx (s : State) (r : Reg) (v : Word) (n : Nat) : (s.wx r v).after n = s.after n := by
  simp [State.after]

@[simp] theorem State.retired_wx (s : State) (r : Reg) (v : Word) : (s.wx r v).retired = s.retired := by
  simp [State.retired]

/-- A state is the sum of its parts: two states with the same fields are the same. -/
theorem State.ext_count (s : State) :
    s.count = { s with csr := { s.csr with minstret := s.retired } } := by
  unfold State.count State.retired; split <;> rfl

theorem State.wx_eq (s : State) (r : Reg) (v : Word) : s.wx r v = { s with x := (s.wx r v).x } := by
  unfold State.wx; split <;> rfl

/-- `put`: the register is written, the instruction retires, `pc` moves on. -/
theorem put_wrote (n : Nat) (rd : Reg) (v : Word) (s : State) :
    ∃ t, put n rd v s = .next t ∧ WroteX s t (s.nextPc n) rd (s.cfg.norm v) := by
  refine ⟨_, rfl, ⟨⟨?_, ?_, ?_⟩, ?_, ?_⟩⟩
  · rw [State.ext_count, State.wx_eq]
  · intro a; simp
  · simp
  · simp [State.after_eq s n]
  · intro r; exact (State.rx_congr _ _ (by simp) r).trans (s.rx_wx rd r v)

/-- `put` of a value that narrows to `w`: the form the claims state. -/
theorem put_computes {i : Instr} {s : State} {n : Nat} {rd : Reg} {v w : Word} (he : exec i s = put n rd v s)
    (hv : s.cfg.norm v = w) : Computes i s n rd w := by
  obtain ⟨t, h, hw⟩ := put_wrote n rd v s
  exact ⟨t, he.trans h, hv ▸ hw⟩

/-- `retire`: nothing but `pc` and the count changes. -/
theorem retire_next (n : Nat) (s : State) : retire n s = .next { s.count with pc := s.after n } := rfl

/-- `retireAt`: nothing but `pc` and the count changes. -/
theorem retireAt_next (t : Word) (s : State) : retireAt t s = .next { s.count with pc := t } := rfl

theorem retireAt_wrote (target : Word) (rd : Reg) (v : Word) (s : State) :
    ∃ t, retireAt target (s.wx rd v) = .next t ∧ WroteX s t target rd (s.cfg.norm v) := by
  refine ⟨_, rfl, ⟨⟨?_, ?_, ?_⟩, rfl, ?_⟩⟩
  · rw [State.ext_count, State.wx_eq]
  · intro a; simp
  · simp
  · intro r; exact (State.rx_congr _ _ (by simp) r).trans (s.rx_wx rd r v)

theorem retireAt_continues (target : Word) (s : State) :
    ∃ t, retireAt target s = .next t ∧ OnlyX s t ∧ t.pc = target ∧ ∀ r, t.rx r = s.rx r := by
  refine ⟨_, rfl, ⟨?_, ?_, ?_⟩, rfl, ?_⟩
  · rw [State.ext_count]
  · intro a; simp
  · simp
  · intro r; exact State.rx_congr _ _ (by simp) r

theorem retire_continues (n : Nat) (s : State) :
    ∃ t, retire n s = .next t ∧ OnlyX s t ∧ t.pc = s.nextPc n ∧ ∀ r, t.rx r = s.rx r := by
  rw [← State.after_eq s n]; exact retireAt_continues (s.after n) s

/-- The alignment check of a jump says that the target may be fetched from. -/
theorem aligned_iff (s : State) (t : Word) : s.cfg.aligned t = true ↔ s.fetchable t := by
  unfold Config.aligned State.fetchable
  split <;>
  · simp only [beq_iff_eq, ← BitVec.toNat_inj, BitVec.extractLsb'_toNat]
    simp

/-- `jump`: a link and a jump, or the misaligned-address exception (40_rv_i.md R272). -/
theorem jump_spec (n : Nat) (rd : Reg) (target : Word) (s : State) :
    (s.fetchable target →
      ∃ t, jump n rd target s = .next t ∧ WroteX s t target rd (s.nextPc n)) ∧
    (¬ s.fetchable target → jump n rd target s = .next (s.take .instructionAddressMisaligned target)) := by
  unfold jump
  constructor
  · intro h
    rw [if_pos ((aligned_iff s target).2 h), State.after_eq s n]
    have := retireAt_wrote target rd (s.nextPc n) s
    rwa [State.nextPc, Config.norm_word] at this
  · intro h; rw [if_neg (fun e => h ((aligned_iff s target).1 e))]; rfl

/-- `branch`: the next instruction, the target, or the misaligned-address exception (40_rv_i.md R272). -/
theorem branch_spec (n : Nat) (taken : Bool) (offset : Word) (s : State) :
    (taken = false →
      ∃ t, branch n taken offset s = .next t ∧ OnlyX s t ∧ t.pc = s.nextPc n ∧ ∀ r, t.rx r = s.rx r) ∧
    (taken = true → s.fetchable (s.cfg.norm (s.pc + offset)) →
      ∃ t, branch n taken offset s = .next t ∧ OnlyX s t ∧ t.pc = s.cfg.norm (s.pc + offset) ∧ ∀ r, t.rx r = s.rx r) ∧
    (taken = true → ¬ s.fetchable (s.cfg.norm (s.pc + offset)) →
      branch n taken offset s = .next (s.take .instructionAddressMisaligned (s.cfg.norm (s.pc + offset)))) := by
  unfold branch
  refine ⟨fun h => ?_, fun h hf => ?_, fun h hf => ?_⟩
  · simp only [h]; exact retire_continues n s
  · simp only [h, if_true, (aligned_iff s _).2 hf]; exact retireAt_continues _ s
  · rw [if_pos h, if_neg (fun e => hf ((aligned_iff s _).1 e))]; rfl

end Sys2Proof.Machine
end

