-- ==== Sys2Proof/Laws/Ops.lean ====
section
/-! SUPPORT. One lemma per shared operation: everything it can do. A proof cites it and unfolds nothing. -/

namespace Sys2Proof.Machine

open Sys2Proof

/-! ### Traps -/

/-- An exception is one of the two trap entries (60_exceptions.md R741). -/
theorem State.take_cases (s : State) (e : Exc) (tval : Word) :
    s.delegated e.code = true ∧ s.take e tval = s.trapS false e.code s.pc tval ∨
      s.delegated e.code = false ∧ s.take e tval = s.trapM false e.code s.pc tval := by
  unfold State.take; cases s.delegated e.code <;> simp

theorem raise_eq (e : Exc) (tval : Word) (s : State) : raise e tval s = .next (s.take e tval) := rfl

theorem illegal_eq (bits : Word) (s : State) : illegal bits s = .next (s.take .illegalInstruction bits) := rfl

/-- An interrupt is one of the two trap entries (60_exceptions.md R733). -/
theorem State.interrupt_cases {s t : State} (h : s.interrupt = some t) :
    ∃ i ∈ interruptOrder,
      s.takeableM i = true ∧ t = s.trapM true i s.pc 0 ∨ s.takeableS i = true ∧ t = s.trapS true i s.pc 0 := by
  unfold State.interrupt at h
  split at h
  · rename_i i hi
    exact ⟨i, List.mem_of_find?_eq_some hi, .inl ⟨List.find?_some hi, (Option.some.inj h).symm⟩⟩
  · split at h
    · rename_i i hi
      exact ⟨i, List.mem_of_find?_eq_some hi, .inr ⟨List.find?_some hi, (Option.some.inj h).symm⟩⟩
    · cases h

/-! ### Accesses -/

/-- A physical write changes main memory, or a register of the CLINT, or nothing. -/
theorem State.physWrite_cases (s : State) (pa n : Nat) (v : Word) :
    inClint s.cfg pa = false ∧ isMain s.cfg pa n = true ∧
        s.physWrite pa n v = { s with mem := memWrite s.mem pa n v } ∨
      (∃ r, inClint s.cfg pa = true ∧ clintReg s.cfg (pa - s.cfg.clintBase) n = some r ∧
        s.physWrite pa n v = { s with clint := s.clint.put v r }) ∨
      s.physWrite pa n v = s := by
  unfold State.physWrite
  cases hc : inClint s.cfg pa
  · cases hm : isMain s.cfg pa n <;> simp
  · cases hr : clintReg s.cfg (pa - s.cfg.clintBase) n <;> simp

/-- A physical write changes nothing but memory and the CLINT. -/
theorem State.physWrite_eq (s : State) (pa n : Nat) (v : Word) :
    s.physWrite pa n v = { s with mem := (s.physWrite pa n v).mem, clint := (s.physWrite pa n v).clint } := by
  rcases s.physWrite_cases pa n v with ⟨_, _, h⟩ | ⟨r, _, _, h⟩ | h <;> simp [h]

theorem State.physRead_main {s : State} {pa n : Nat} (h : s.inMain pa n) (k : Access) (va : Word) (l : Option Nat) :
    s.physRead k va l pa n = memRead s.mem pa n := by
  simp [State.physRead, h.1, h.2]

theorem State.physWrite_main {s : State} {pa n : Nat} (h : s.inMain pa n) (v : Word) :
    s.physWrite pa n v = { s with mem := memWrite s.mem pa n v } := by
  simp [State.physWrite, h.1, h.2]

/-- `alignedAddr` answers an address, or the exception of the first check that fails. -/
theorem State.alignedAddr_cases (s : State) (k : Access) (va : Word) (n : Nat) :
    va.toNat % n ≠ 0 ∧ s.alignedAddr k va n = .error (misalignedExc k) ∨
      (∃ e, va.toNat % n = 0 ∧ s.translate k va = .error e ∧ s.alignedAddr k va n = .error e) ∨
      (∃ pa, va.toNat % n = 0 ∧ s.translate k va = .ok pa ∧ regionOk s.cfg k pa n = false ∧
        s.alignedAddr k va n = .error (accessExc k)) ∨
      ∃ pa, va.toNat % n = 0 ∧ s.translate k va = .ok pa ∧ regionOk s.cfg k pa n = true ∧
        s.alignedAddr k va n = .ok pa := by
  unfold State.alignedAddr State.physAddr
  by_cases ha : va.toNat % n = 0
  · cases ht : s.translate k va with
    | error e => simp [ha]
    | ok pa => cases hr : regionOk s.cfg k pa n <;> simp [ha, hr]
  · simp [ha]

/-- A read that is not split answers what the physical read gives, or the exception with the address. -/
theorem State.read_aligned {s : State} {k : Access} {va : Word} {n : Nat} (h : s.split k va n = false) :
    s.read k va n =
      match s.alignedAddr k va n with
      | .error e => .error (e, va)
      | .ok pa => .ok (s.physRead k va none pa n) := by
  exact if_neg (by simp [h])

/-- A write that is not split does the physical write, or answers the exception and leaves the state. -/
theorem State.write_aligned {s : State} {k : Access} {va : Word} {n : Nat} (h : s.split k va n = false) (v : Word) :
    s.write k va n v =
      match s.alignedAddr k va n with
      | .error e => .error (e, va, s)
      | .ok pa => .ok (s.physWrite pa n v) := by
  exact if_neg (by simp [h])

/-- A misaligned read under MISALIGNED = support is refused by its region, or done byte by byte (20_memory.md R111). -/
theorem State.read_split {s : State} {k : Access} {va : Word} {n : Nat} (h : s.split k va n = true) :
    s.splitRefused k va = true ∧ s.read k va n = .error (accessExc k, va) ∨
      s.splitRefused k va = false ∧ s.read k va n = s.readSplit k va (s.splitOrder va n) 0 := by
  unfold State.read
  rw [if_pos h]
  cases s.splitRefused k va <;> simp

/-- A misaligned write under MISALIGNED = support is refused by its region, or done byte by byte (20_memory.md R111). -/
theorem State.write_split {s : State} {k : Access} {va : Word} {n : Nat} (h : s.split k va n = true) (v : Word) :
    s.splitRefused k va = true ∧ s.write k va n v = .error (accessExc k, va, s) ∨
      s.splitRefused k va = false ∧ s.write k va n v = State.writeSplit k va v (s.splitOrder va n) s := by
  unfold State.write
  rw [if_pos h]
  cases s.splitRefused k va <;> simp

/-- An aligned access is never split. -/
theorem State.split_of_aligned {s : State} {k : Access} {va : Word} {n pa : Nat} (h : s.alignedAddr k va n = .ok pa) :
    s.split k va n = false := by
  unfold State.alignedAddr at h
  unfold State.split
  split at h
  · rename_i h0; simp [h0]
  · cases h

/-- A fetch, a table read, an `lr`, an `sc` and an AMO are never split (20_memory.md R111). -/
theorem State.split_of_kind {s : State} {k : Access} (h : splits k = false) (va : Word) (n : Nat) :
    s.split k va n = false := by
  simp [State.split, h]

theorem State.writeSplit_eq (k : Access) (va v : Word) (order : List Nat) (s : State) :
    ∃ m c, written (State.writeSplit k va v order s) = { s with mem := m, clint := c } := by
  induction order generalizing s with
  | nil => exact ⟨_, _, rfl⟩
  | cons i order ih =>
    simp only [State.writeSplit]
    split
    · exact ⟨_, _, rfl⟩
    · rename_i pa _
      obtain ⟨m, c, h⟩ := ih (s.physWrite pa 1 ((v >>> (8 * i)).setWidth 8 |>.setWidth 64))
      rw [h, State.physWrite_eq]
      exact ⟨_, _, rfl⟩

/-- A store changes nothing but memory and the CLINT, whether it completes or fails. -/
theorem State.write_eq (s : State) (k : Access) (va : Word) (n : Nat) (v : Word) :
    ∃ m c, written (s.write k va n v) = { s with mem := m, clint := c } := by
  unfold State.write
  split
  · split
    · exact ⟨_, _, rfl⟩
    · exact State.writeSplit_eq ..
  · split
    · exact ⟨_, _, rfl⟩
    · rw [written, State.physWrite_eq]; exact ⟨_, _, rfl⟩

/-! ### The shapes of the instructions -/

/-- `loadInt`: the exception of the access, or the value goes to the register. -/
theorem loadInt_cases (len : Nat) (rd : Reg) (va : Word) (n : Nat) (ext : Word → Word) (s : State) :
    (∃ e tval, s.read .load va n = .error (e, tval) ∧ loadInt len rd va n ext s = .next (s.take e tval)) ∨
      ∃ v, s.read .load va n = .ok v ∧ loadInt len rd va n ext s = put len rd (ext v) s := by
  unfold loadInt
  cases h : s.read .load va n with
  | error x => exact .inl ⟨x.1, x.2, rfl, rfl⟩
  | ok v => exact .inr ⟨v, rfl, rfl⟩

/-- `storeVal`: the exception of the access from the state it leaves, or the store and the retirement. -/
theorem storeVal_cases (len : Nat) (va : Word) (n : Nat) (v : Word) (s : State) :
    (∃ e tval t, s.write .store va n v = .error (e, tval, t) ∧ storeVal len va n v s = .next (t.take e tval)) ∨
      ∃ t, s.write .store va n v = .ok t ∧ storeVal len va n v s = retire len t := by
  unfold storeVal
  cases h : s.write .store va n v with
  | error x => exact .inl ⟨x.1, x.2.1, x.2.2, rfl, rfl⟩
  | ok t => exact .inr ⟨t, rfl, rfl⟩

/-- `loadReserved`: the exception of the access, or the value and the reservation. -/
theorem loadReserved_cases (rd : Reg) (va : Word) (n : Nat) (ext : Word → Word) (s : State) :
    (∃ e, s.alignedAddr .lr va n = .error e ∧ loadReserved rd va n ext s = .next (s.take e va)) ∨
      ∃ pa, s.alignedAddr .lr va n = .ok pa ∧
        loadReserved rd va n ext s = put 4 rd (ext (s.physRead .lr va none pa n)) { s with resv := some (va, n) } := by
  unfold loadReserved
  rw [State.read_aligned (State.split_of_kind rfl va n)]
  cases h : s.alignedAddr .lr va n with
  | error e => exact .inl ⟨e, rfl, rfl⟩
  | ok pa => exact .inr ⟨pa, rfl, rfl⟩

/-- `storeConditional`: the exception of the access, or success, or failure; the reservation is gone. -/
theorem storeConditional_cases (rd : Reg) (va : Word) (n : Nat) (v : Word) (s : State) :
    (∃ e, s.alignedAddr .sc va n = .error e ∧ storeConditional rd va n v s = .next (s.take e va)) ∨
      (∃ pa, s.alignedAddr .sc va n = .ok pa ∧ s.reserved va n = true ∧ Config.scFails s.draws = false ∧
        storeConditional rd va n v s = put 4 rd 0 { s.physWrite pa n v with resv := none }) ∨
      ∃ pa, s.alignedAddr .sc va n = .ok pa ∧ (s.reserved va n = false ∨ Config.scFails s.draws = true) ∧
        storeConditional rd va n v s = put 4 rd 1 { s with resv := none } := by
  unfold storeConditional
  cases h : s.alignedAddr .sc va n with
  | error e => exact .inl ⟨e, rfl, rfl⟩
  | ok pa =>
    refine .inr ?_
    cases hr : s.reserved va n
    · exact .inr ⟨pa, rfl, .inl rfl, by simp⟩
    · cases hf : Config.scFails s.draws
      · exact .inl ⟨pa, rfl, rfl, rfl, by simp⟩
      · exact .inr ⟨pa, rfl, .inr rfl, by simp⟩

/-- `amo`: the exception of the access, or the old value to the register and the new one to memory. -/
theorem amo_cases (rd : Reg) (va : Word) (n : Nat) (ext : Word → Word) (op : Word → Word → Word) (v : Word) (s : State) :
    (∃ e, s.alignedAddr .amo va n = .error e ∧ amo rd va n ext op v s = .next (s.take e va)) ∨
      ∃ pa, s.alignedAddr .amo va n = .ok pa ∧
        amo rd va n ext op v s =
          put 4 rd (ext (s.physRead .amo va none pa n)) (s.physWrite pa n (op (s.physRead .amo va none pa n) v)) := by
  unfold amo
  cases h : s.alignedAddr .amo va n with
  | error e => exact .inl ⟨e, rfl, rfl⟩
  | ok pa => exact .inr ⟨pa, rfl, rfl⟩

/-- `fpGuard`: illegal with the unit off, else what it guards (44_fd.md R395). -/
theorem fpGuard_cases (bits : Word) (s : State) (k : Result) :
    s.csr.mstatus.fs = 0 ∧ fpGuard bits s k = .next (s.take .illegalInstruction bits) ∨
      s.csr.mstatus.fs ≠ 0 ∧ fpGuard bits s k = k := by
  unfold fpGuard State.fpOff
  by_cases h : s.csr.mstatus.fs = 0
  · exact .inl ⟨h, by rw [h]; rfl⟩
  · exact .inr ⟨h, by simp [show (s.csr.mstatus.fs == 0#2) = false from beq_false_of_ne h]⟩

/-- `fpRounded`: illegal with the unit off or without a rounding mode, else what it guards (44_fd.md R391, R395). -/
theorem fpRounded_cases (bits : Word) (rm : BitVec 3) (s : State) (k : RMode → Result) :
    (s.csr.mstatus.fs = 0 ∨ s.roundingMode rm = none) ∧ fpRounded bits rm s k = .next (s.take .illegalInstruction bits) ∨
      ∃ m, s.csr.mstatus.fs ≠ 0 ∧ s.roundingMode rm = some m ∧ fpRounded bits rm s k = k m := by
  unfold fpRounded State.fpOff
  by_cases h : s.csr.mstatus.fs = 0
  · exact .inl ⟨.inl h, by rw [h]; rfl⟩
  · have hf : (s.csr.mstatus.fs == 0#2) = false := beq_false_of_ne h
    cases hm : s.roundingMode rm with
    | none => exact .inl ⟨.inr rfl, by simp [hf, illegal_eq]⟩
    | some m => exact .inr ⟨m, h, rfl, by simp [hf]⟩

/-- `csrInstr`: illegal when the access check refuses, else the old value to the register and the write
(40_rv_i.md R250). -/
theorem csrInstr_cases (bits : Word) (op : CsrOp) (rd : Reg) (a : BitVec 12) (v : Word) (writes : Bool) (s : State) :
    s.csrAccess a writes = none ∧ csrInstr bits op rd a v writes s = .next (s.take .illegalInstruction bits) ∨
      ∃ r, s.csrAccess a writes = some r ∧
        csrInstr bits op rd a v writes s =
          csrRetire writes r
            ((if writes then s.csrPut r (op.apply (s.csrBase r) v) else s).wx rd (s.csrGet r)) := by
  unfold csrInstr
  cases h : s.csrAccess a writes with
  | none => exact .inl ⟨rfl, rfl⟩
  | some r => exact .inr ⟨r, rfl, rfl⟩

/-- `csrRetire` moves `pc` on and counts the instruction, or leaves the count it wrote. -/
theorem csrRetire_next (writes : Bool) (r : Csr) (s : State) :
    csrRetire writes r s = .next { s with pc := s.after 4 } ∧ writes = true ∧ r.replacesCount = true ∨
      csrRetire writes r s = .next { s.count with pc := s.after 4 } ∧ (writes && r.replacesCount) = false := by
  unfold csrRetire
  cases h : (writes && r.replacesCount)
  · exact .inr ⟨rfl, rfl⟩
  · exact .inl ⟨rfl, by simpa using h⟩

/-- `popThen`: the exception of an access from the state it leaves, or what follows once `sp` is moved. -/
theorem popThen_cases (rlist : BitVec 4) (spimm : BitVec 2) (s : State) (k : State → Result) :
    (∃ e tval t, popAll (listRegs rlist) (s.popStart rlist spimm) s = .error (e, tval, t) ∧
        popThen rlist spimm s k = .next (t.take e tval)) ∨
      ∃ t, popAll (listRegs rlist) (s.popStart rlist spimm) s = .ok t ∧
        popThen rlist spimm s k = k (t.wx State.sp (s.rx State.sp + stackAdj s.cfg rlist spimm)) := by
  unfold popThen
  cases h : popAll (listRegs rlist) (s.popStart rlist spimm) s with
  | error x => exact .inl ⟨x.1, x.2.1, x.2.2, rfl, rfl⟩
  | ok t => exact .inr ⟨t, rfl, rfl⟩

/-- The stores of a push change nothing but memory and the CLINT, whether they complete or fail. -/
theorem pushAll_eq (l : List Reg) (addr : Word) (s : State) :
    ∃ m c, written (pushAll l addr s) = { s with mem := m, clint := c } := by
  induction l generalizing addr s with
  | nil => exact ⟨_, _, rfl⟩
  | cons r l ih =>
    simp only [pushAll]
    obtain ⟨m, c, hw⟩ := s.write_eq .push addr s.cfg.xlen.bytes (s.rx r)
    split
    · rename_i heq; rw [heq] at hw; exact ⟨m, c, hw⟩
    · rename_i t heq; rw [heq] at hw
      obtain ⟨m', c', h⟩ := ih (t.cfg.norm (addr - BitVec.ofNat 64 t.cfg.xlen.bytes)) t
      rw [h, show t = { s with mem := m, clint := c } from hw]
      exact ⟨_, _, rfl⟩

/-- The loads of a pop change nothing but integer registers, whether they complete or fail. -/
theorem popAll_eq (l : List Reg) (addr : Word) (s : State) :
    ∃ x, written (popAll l addr s) = { s with x := x } := by
  induction l generalizing addr s with
  | nil => exact ⟨_, rfl⟩
  | cons r l ih =>
    simp only [popAll]
    split
    · exact ⟨_, rfl⟩
    · rename_i v _
      obtain ⟨x, h⟩ := ih (s.cfg.norm (addr - BitVec.ofNat 64 s.cfg.xlen.bytes)) (s.wx r v)
      rw [h, State.wx_eq]
      exact ⟨_, rfl⟩

/-- `tableJump`: the exception of the table read, or the jump to the entry (48_zc.md R699). -/
theorem tableJump_cases (index : Nat) (link : State → State) (s : State) :
    (∃ e, s.alignedAddr .table (s.tableAddr index) s.cfg.xlen.bytes = .error e ∧
        tableJump index link s = .next (s.take e (s.tableAddr index))) ∨
      ∃ pa, s.alignedAddr .table (s.tableAddr index) s.cfg.xlen.bytes = .ok pa ∧
        tableJump index link s =
          retireAt (s.physRead .table (s.tableAddr index) none pa s.cfg.xlen.bytes &&& ~~~1#64) (link s) := by
  unfold tableJump
  rw [State.read_aligned (State.split_of_kind rfl _ _)]
  cases h : s.alignedAddr .table (s.tableAddr index) s.cfg.xlen.bytes with
  | error e => exact .inl ⟨e, rfl, rfl⟩
  | ok pa => exact .inr ⟨pa, rfl, rfl⟩

/-! ### The step -/

/-- A step of a hart that runs: the interrupt, the fetch exception, or the instruction; then the counters advance. -/
theorem step_awake {s : State} (hc : s.cfg.wf = true) (hw : (s.sample.waiting && !s.sample.wakes) = false) :
    step s = afterStep { s.sample with waiting := false }.run := by
  unfold step; rw [if_pos hc, hw]; rfl

/-- A waiting hart that nothing wakes. -/
theorem step_waiting {s : State} (hc : s.cfg.wf = true) (hw : (s.sample.waiting && !s.sample.wakes) = true) :
    step s = .next s.sample.tickWaiting := by
  unfold step; rw [if_pos hc, if_pos hw]

/-- What a hart that runs does. -/
theorem State.run_cases (s : State) :
    (∃ t, s.interrupt = some t ∧ s.run = .next t) ∨
      (∃ e tval, s.interrupt = none ∧ s.fetch = .error (e, tval) ∧ s.run = .next (s.take e tval)) ∨
      ∃ code, s.interrupt = none ∧ s.fetch = .ok code ∧ s.run = execCode code s := by
  unfold State.run
  cases hi : s.interrupt with
  | some t => exact .inl ⟨t, rfl, rfl⟩
  | none =>
    refine .inr ?_
    cases hf : s.fetch with
    | error x => exact .inl ⟨x.1, x.2, rfl, rfl, rfl⟩
    | ok code => exact .inr ⟨code, rfl, rfl, rfl⟩

/-- Bits that are no instruction are illegal; an instruction is run. -/
theorem execCode_cases (code : Code) (s : State) :
    (∃ r, decode s.cfg code = .error r ∧ execCode code s = .next (s.take .illegalInstruction code.bits)) ∨
      ∃ i, decode s.cfg code = .ok i ∧ execCode code s = exec i s := by
  unfold execCode
  cases h : decode s.cfg code with
  | error r => exact .inl ⟨r, rfl, rfl⟩
  | ok i => exact .inr ⟨i, rfl, rfl⟩

end Sys2Proof.Machine
end

