-- ==== Sys2Proof/Tests/Slice0.lean ====
section
/-! SUPPORT. The model's own tests. The decode tests take their words from the encoding tables and worked examples of
the spec; the step tests take their results from its worked examples, or from hand calculation with the rule named. The
witnesses are states and operands that meet the hypotheses of the statements. -/

namespace Sys2Proof.Tests

open Sys2Proof Sys2Proof.Machine

set_option Elab.async false

/-! ### Words and the instructions they stand for -/

/-- The words decode to the instructions beside them. -/
abbrev Reads (c : Config) (l : List (BitVec 32 × Instr)) : Prop := ∀ p ∈ l, decode c (.word p.1) = .ok p.2

/-- The same for 16-bit words. -/
abbrev ReadsHalf (c : Config) (l : List (BitVec 16 × Instr)) : Prop := ∀ p ∈ l, decode c (.half p.1) = .ok p.2

theorem test_decode_base_a : Reads .default
    [(0x123452B7, .lui 5 74565), (0x00001297, .auipc 5 1), (0xFFF30293, .addi 5 6 4095), (0xFFF32293, .slti 5 6 4095),
    (0xFFF33293, .sltiu 5 6 4095), (0xFFF34293, .xori 5 6 4095), (0x0F036293, .ori 5 6 240),
    (0x0FF37293, .andi 5 6 255), (0x00331293, .slli 5 6 3), (0x03F31293, .slli 5 6 63), (0x00435293, .srli 5 6 4),
    (0x40435293, .srai 5 6 4), (0x007302B3, .add 5 6 7), (0x407302B3, .sub 5 6 7), (0x007312B3, .sll 5 6 7),
    (0x007322B3, .slt 5 6 7), (0x007332B3, .sltu 5 6 7), (0x007342B3, .xor 5 6 7), (0x007352B3, .srl 5 6 7),
    (0x407352B3, .sra 5 6 7), (0x007362B3, .or 5 6 7), (0x007372B3, .and 5 6 7), (0x0330000F, .fence 0 3 3 0 0),
    (0x00000073, .ecall), (0x00100073, .ebreak), (0x30200073, .mret), (0x10500073, .wfi), (0xFFC30283, .lb 5 6 4092),
    (0x00231283, .lh 5 6 2), (0x00832283, .lw 5 6 8), (0x00034283, .lbu 5 6 0), (0x00235283, .lhu 5 6 2)] := by decide +kernel

theorem test_decode_base_b : Reads .default
    [(0x007300A3, .sb 6 7 1), (0xFE731F23, .sh 6 7 4094), (0x00732623, .sw 6 7 12), (0x001000EF, .jal 1 1024),
    (0xFF9FF06F, .jal 0 1048572), (0x004300E7, .jalr 1 6 4), (0x00008067, .jalr 0 1 0), (0x00628863, .beq 5 6 8),
    (0xFE628EE3, .beq 5 6 4094), (0x00629863, .bne 5 6 8), (0x0062C863, .blt 5 6 8), (0x0062D863, .bge 5 6 8),
    (0x0062E863, .bltu 5 6 8), (0x0062F863, .bgeu 5 6 8), (0x0013029B, .addiw 5 6 1), (0x0003029B, .addiw 5 6 0),
    (0x01F3129B, .slliw 5 6 31), (0x0043529B, .srliw 5 6 4), (0x4043529B, .sraiw 5 6 4), (0x007302BB, .addw 5 6 7),
    (0x407302BB, .subw 5 6 7), (0x007312BB, .sllw 5 6 7), (0x007352BB, .srlw 5 6 7), (0x407352BB, .sraw 5 6 7),
    (0x00836283, .lwu 5 6 8), (0x01033283, .ld 5 6 16), (0x00733C23, .sd 6 7 24)] := by decide +kernel

theorem test_decode_fence_i : Reads .default
    [(0x0000100F, .fence_i 0 0 0)] := by decide +kernel

theorem test_decode_csr : Reads .default
    [(0x340312F3, .csrrw 5 6 832), (0x300022F3, .csrrs 5 0 768), (0x30432073, .csrrs 0 6 772),
    (0x300332F3, .csrrc 5 6 768), (0x340FD073, .csrrwi 0 31 832), (0x30046073, .csrrsi 0 8 768),
    (0x300472F3, .csrrci 5 8 768)] := by decide +kernel

theorem test_decode_supervisor : Reads .default
    [(0x10200073, .sret), (0x12000073, .sfence_vma 0 0), (0x12B50073, .sfence_vma 10 11)] := by decide +kernel

theorem test_decode_m : Reads .default
    [(0x027302B3, .mul 5 6 7), (0x027312B3, .mulh 5 6 7), (0x027322B3, .mulhsu 5 6 7), (0x027332B3, .mulhu 5 6 7),
    (0x027342B3, .div 5 6 7), (0x027352B3, .divu 5 6 7), (0x027362B3, .rem 5 6 7), (0x027372B3, .remu 5 6 7),
    (0x027302BB, .mulw 5 6 7), (0x027342BB, .divw 5 6 7), (0x027352BB, .divuw 5 6 7), (0x027362BB, .remw 5 6 7),
    (0x027372BB, .remuw 5 6 7)] := by decide +kernel

theorem test_decode_a : Reads .default
    [(0x100322AF, .lr_w false false 5 6), (0x160322AF, .lr_w true true 5 6), (0x187322AF, .sc_w false false 5 6 7),
    (0x087322AF, .amoswap_w false false 5 6 7), (0x007322AF, .amoadd_w false false 5 6 7),
    (0x207322AF, .amoxor_w false false 5 6 7), (0x607322AF, .amoand_w false false 5 6 7),
    (0x407322AF, .amoor_w false false 5 6 7), (0x807322AF, .amomin_w false false 5 6 7),
    (0xA07322AF, .amomax_w false false 5 6 7), (0xC07322AF, .amominu_w false false 5 6 7),
    (0xE07322AF, .amomaxu_w false false 5 6 7), (0x100332AF, .lr_d false false 5 6),
    (0x187332AF, .sc_d false false 5 6 7), (0x087332AF, .amoswap_d false false 5 6 7),
    (0x007332AF, .amoadd_d false false 5 6 7), (0x207332AF, .amoxor_d false false 5 6 7),
    (0x607332AF, .amoand_d false false 5 6 7), (0x407332AF, .amoor_d false false 5 6 7),
    (0x807332AF, .amomin_d false false 5 6 7), (0xA07332AF, .amomax_d false false 5 6 7),
    (0xC07332AF, .amominu_d false false 5 6 7), (0xE07332AF, .amomaxu_d false false 5 6 7)] := by decide +kernel

theorem test_decode_f : Reads .default
    [(0x407372C3, .fmadd_s 5 6 7 8 7), (0x407372C7, .fmsub_s 5 6 7 8 7), (0x407372CB, .fnmsub_s 5 6 7 8 7),
    (0x407372CF, .fnmadd_s 5 6 7 8 7), (0x007372D3, .fadd_s 5 6 7 7), (0x087372D3, .fsub_s 5 6 7 7),
    (0x107372D3, .fmul_s 5 6 7 7), (0x187372D3, .fdiv_s 5 6 7 7), (0x580372D3, .fsqrt_s 5 6 7),
    (0x207302D3, .fsgnj_s 5 6 7), (0x207312D3, .fsgnjn_s 5 6 7), (0x207322D3, .fsgnjx_s 5 6 7),
    (0x287302D3, .fmin_s 5 6 7), (0x287312D3, .fmax_s 5 6 7), (0xA07322D3, .feq_s 5 6 7), (0xA07312D3, .flt_s 5 6 7),
    (0xA07302D3, .fle_s 5 6 7), (0xE00312D3, .fclass_s 5 6), (0xC00312D3, .fcvt_w_s 5 6 1),
    (0xC01312D3, .fcvt_wu_s 5 6 1), (0xC02312D3, .fcvt_l_s 5 6 1), (0xC03312D3, .fcvt_lu_s 5 6 1),
    (0xD00372D3, .fcvt_s_w 5 6 7), (0xD01372D3, .fcvt_s_wu 5 6 7), (0xD02372D3, .fcvt_s_l 5 6 7),
    (0xD03372D3, .fcvt_s_lu 5 6 7), (0xE00302D3, .fmv_x_w 5 6), (0xF00302D3, .fmv_w_x 5 6), (0x00832287, .flw 5 6 8),
    (0x00732427, .fsw 6 7 8), (0xFE732E27, .fsw 6 7 4092)] := by decide +kernel

theorem test_decode_d : Reads .default
    [(0x427372C3, .fmadd_d 5 6 7 8 7), (0x427372C7, .fmsub_d 5 6 7 8 7), (0x427372CB, .fnmsub_d 5 6 7 8 7),
    (0x427372CF, .fnmadd_d 5 6 7 8 7), (0x027372D3, .fadd_d 5 6 7 7), (0x0A7372D3, .fsub_d 5 6 7 7),
    (0x127372D3, .fmul_d 5 6 7 7), (0x1A7372D3, .fdiv_d 5 6 7 7), (0x5A0372D3, .fsqrt_d 5 6 7),
    (0x227302D3, .fsgnj_d 5 6 7), (0x227312D3, .fsgnjn_d 5 6 7), (0x227322D3, .fsgnjx_d 5 6 7),
    (0x2A7302D3, .fmin_d 5 6 7), (0x2A7312D3, .fmax_d 5 6 7), (0xA27322D3, .feq_d 5 6 7), (0xA27312D3, .flt_d 5 6 7),
    (0xA27302D3, .fle_d 5 6 7), (0xE20312D3, .fclass_d 5 6), (0xC20312D3, .fcvt_w_d 5 6 1),
    (0xC21312D3, .fcvt_wu_d 5 6 1), (0xC22312D3, .fcvt_l_d 5 6 1), (0xC23312D3, .fcvt_lu_d 5 6 1),
    (0xD20302D3, .fcvt_d_w 5 6 0), (0xD21302D3, .fcvt_d_wu 5 6 0), (0xD22372D3, .fcvt_d_l 5 6 7),
    (0xD23372D3, .fcvt_d_lu 5 6 7), (0x401372D3, .fcvt_s_d 5 6 7), (0x420302D3, .fcvt_d_s 5 6 0),
    (0xE20302D3, .fmv_x_d 5 6), (0xF20302D3, .fmv_d_x 5 6), (0x01033287, .fld 5 6 16), (0x00733C27, .fsd 6 7 24)] := by decide +kernel

theorem test_decode_zfh_a : Reads .default
    [(0x447372C3, .fmadd_h 5 6 7 8 7), (0x447372C7, .fmsub_h 5 6 7 8 7), (0x447372CB, .fnmsub_h 5 6 7 8 7),
    (0x447372CF, .fnmadd_h 5 6 7 8 7), (0x047372D3, .fadd_h 5 6 7 7), (0x0C7372D3, .fsub_h 5 6 7 7),
    (0x147372D3, .fmul_h 5 6 7 7), (0x1C7372D3, .fdiv_h 5 6 7 7), (0x5C0372D3, .fsqrt_h 5 6 7),
    (0x247302D3, .fsgnj_h 5 6 7), (0x247312D3, .fsgnjn_h 5 6 7), (0x247322D3, .fsgnjx_h 5 6 7),
    (0x2C7302D3, .fmin_h 5 6 7), (0x2C7312D3, .fmax_h 5 6 7), (0xA47322D3, .feq_h 5 6 7), (0xA47312D3, .flt_h 5 6 7),
    (0xA47302D3, .fle_h 5 6 7), (0xE40312D3, .fclass_h 5 6), (0xC40312D3, .fcvt_w_h 5 6 1),
    (0xC41372D3, .fcvt_wu_h 5 6 7), (0xC42372D3, .fcvt_l_h 5 6 7), (0xC43372D3, .fcvt_lu_h 5 6 7),
    (0xD40372D3, .fcvt_h_w 5 6 7), (0xD41372D3, .fcvt_h_wu 5 6 7), (0xD42372D3, .fcvt_h_l 5 6 7),
    (0xD43372D3, .fcvt_h_lu 5 6 7), (0x402302D3, .fcvt_s_h 5 6 0), (0x440372D3, .fcvt_h_s 5 6 7),
    (0x422302D3, .fcvt_d_h 5 6 0), (0x441372D3, .fcvt_h_d 5 6 7), (0x462302D3, .fcvt_q_h 5 6 0),
    (0x443372D3, .fcvt_h_q 5 6 7)] := by decide +kernel

theorem test_decode_zfh_b : Reads .default
    [(0xE40302D3, .fmv_x_h 5 6), (0xF40302D3, .fmv_h_x 5 6), (0x00231287, .flh 5 6 2), (0x00731127, .fsh 6 7 2)] := by decide +kernel

theorem test_decode_c_a : ReadsHalf .default
    [(0x0808, .c_addi4spn 2 4), (0x1FE0, .c_addi4spn 0 255), (0x2504, .c_fld 1 2 1), (0x4144, .c_lw 1 2 1),
    (0x5D64, .c_lw 1 2 31), (0x6504, .c_ld 1 2 1), (0x7D64, .c_ld 1 2 31), (0xA504, .c_fsd 2 1 1),
    (0xC144, .c_sw 2 1 1), (0xE504, .c_sd 2 1 1), (0x0001, .c_nop 0), (0x157D, .c_addi 10 63), (0x0515, .c_addi 10 5),
    (0x2505, .c_addiw 10 1), (0x2501, .c_addiw 10 0), (0x557D, .c_li 10 63), (0x457D, .c_li 10 31),
    (0x713D, .c_addi16sp 62), (0x617D, .c_addi16sp 31), (0x6505, .c_lui 10 1), (0x757D, .c_lui 10 63),
    (0x8111, .c_srli 2 4), (0x917D, .c_srli 2 63), (0x8511, .c_srai 2 4), (0x9941, .c_andi 2 48),
    (0x893D, .c_andi 2 15), (0x8D0D, .c_sub 2 3), (0x8D2D, .c_xor 2 3), (0x8D4D, .c_or 2 3), (0x8D6D, .c_and 2 3),
    (0x9D0D, .c_subw 2 3), (0x9D2D, .c_addw 2 3)] := by decide +kernel

theorem test_decode_c_b : ReadsHalf .default
    [(0xA021, .c_j 4), (0xBFF5, .c_j 2046), (0xC501, .c_beqz 2 4), (0xCD7D, .c_beqz 2 127), (0xFD75, .c_bnez 2 254),
    (0xF101, .c_bnez 2 128), (0x0512, .c_slli 10 4), (0x157E, .c_slli 10 63), (0x2522, .c_fldsp 10 1),
    (0x4512, .c_lwsp 10 1), (0x557E, .c_lwsp 10 63), (0x6522, .c_ldsp 10 1), (0x757E, .c_ldsp 10 63),
    (0x8082, .c_jr 1), (0x852E, .c_mv 10 11), (0x9002, .c_ebreak), (0x9502, .c_jalr 10), (0x952E, .c_add 10 11),
    (0xA42E, .c_fsdsp 11 1), (0xC22E, .c_swsp 11 1), (0xDFAE, .c_swsp 11 63), (0xE42E, .c_sdsp 11 1),
    (0xFFAE, .c_sdsp 11 63)] := by decide +kernel

theorem test_decode_c_rv32 : ReadsHalf .rv32
    [(0x6144, .c_flw 1 2 1), (0xE144, .c_fsw 2 1 1), (0x2021, .c_jal 4), (0x6512, .c_flwsp 10 1),
    (0xE22E, .c_fswsp 11 1)] := by decide +kernel

theorem test_decode_zba : Reads .default
    [(0x087302BB, .add_uw 5 6 7), (0x207322B3, .sh1add 5 6 7), (0x207342B3, .sh2add 5 6 7),
    (0x207362B3, .sh3add 5 6 7), (0x207322BB, .sh1add_uw 5 6 7), (0x207342BB, .sh2add_uw 5 6 7),
    (0x207362BB, .sh3add_uw 5 6 7), (0x0833129B, .slli_uw 5 6 3), (0x0A33129B, .slli_uw 5 6 35)] := by decide +kernel

theorem test_decode_zbb : Reads .default
    [(0x407372B3, .andn 5 6 7), (0x407362B3, .orn 5 6 7), (0x407342B3, .xnor 5 6 7), (0x60031293, .clz 5 6),
    (0x6003129B, .clzw 5 6), (0x60131293, .ctz 5 6), (0x6013129B, .ctzw 5 6), (0x60231293, .cpop 5 6),
    (0x6023129B, .cpopw 5 6), (0x60431293, .sext_b 5 6), (0x60531293, .sext_h 5 6), (0x0A7362B3, .max 5 6 7),
    (0x0A7372B3, .maxu 5 6 7), (0x0A7342B3, .min 5 6 7), (0x0A7352B3, .minu 5 6 7), (0x080342BB, .zext_h_rv64 5 6),
    (0x607312B3, .rol 5 6 7), (0x607312BB, .rolw 5 6 7), (0x607352B3, .ror 5 6 7), (0x60335293, .rori 5 6 3),
    (0x62335293, .rori 5 6 35), (0x6033529B, .roriw 5 6 3), (0x607352BB, .rorw 5 6 7), (0x28735293, .orc_b 5 6),
    (0x6B835293, .rev8_rv64 5 6)] := by decide +kernel

theorem test_decode_zbb_rv32 : Reads .rv32
    [(0x080342B3, .zext_h_rv32 5 6), (0x69835293, .rev8_rv32 5 6)] := by decide +kernel

theorem test_decode_zbc : Reads .default
    [(0x0A7312B3, .clmul 5 6 7), (0x0A7332B3, .clmulh 5 6 7), (0x0A7322B3, .clmulr 5 6 7)] := by decide +kernel

theorem test_decode_zbs : Reads .default
    [(0x487312B3, .bclr 5 6 7), (0x48331293, .bclri 5 6 3), (0x487352B3, .bext 5 6 7), (0x48335293, .bexti 5 6 3),
    (0x687312B3, .binv 5 6 7), (0x68331293, .binvi 5 6 3), (0x287312B3, .bset 5 6 7), (0x28331293, .bseti 5 6 3),
    (0x2A331293, .bseti 5 6 35)] := by decide +kernel

theorem test_decode_zcb : ReadsHalf .default
    [(0x81C8, .c_lbu 2 3 1), (0x81A8, .c_lbu 2 3 2), (0x85A8, .c_lhu 2 3 1), (0x8588, .c_lhu 2 3 0),
    (0x85E8, .c_lh 2 3 1), (0x85C8, .c_lh 2 3 0), (0x89C8, .c_sb 3 2 1), (0x89E8, .c_sb 3 2 3), (0x8DA8, .c_sh 3 2 1),
    (0x9D61, .c_zext_b 2), (0x9D65, .c_sext_b 2), (0x9D69, .c_zext_h 2), (0x9D6D, .c_sext_h 2), (0x9D71, .c_zext_w 2),
    (0x9D75, .c_not 2), (0x9D4D, .c_mul 2 3)] := by decide +kernel

theorem test_decode_zcmp : ReadsHalf .rv64Zc
    [(0xB862, .cm_push 6 0), (0xB842, .cm_push 4 0), (0xBA62, .cm_pop 6 0), (0xBC62, .cm_popretz 6 0),
    (0xBE62, .cm_popret 6 0), (0xBE42, .cm_popret 4 0), (0xAC26, .cm_mvsa01 0 1), (0xAD3E, .cm_mvsa01 2 7),
    (0xAD6E, .cm_mva01s 2 3), (0xAC62, .cm_mva01s 0 0)] := by decide +kernel

theorem test_decode_zcmt : ReadsHalf .rv64Zc
    [(0xA016, .cm_jt 5), (0xA07E, .cm_jt 31), (0xA082, .cm_jalt 32), (0xA3FE, .cm_jalt 255)] := by decide +kernel

theorem test_decode_zicond : Reads .default
    [(0x0E7352B3, .czero_eqz 5 6 7), (0x0E7372B3, .czero_nez 5 6 7)] := by decide +kernel

/-! ### What WellFormed refuses: an ill-formed term for each check -/

/-- The base with no extension. -/
def bare : Config :=
  { Config.default with
    extM := false, extA := false, extF := false, extD := false, extC := false, extZba := false, extZbb := false
    extZbc := false, extZbs := false, extZfh := false, extZcb := false, extZicond := false, extZicsr := false
    extZifencei := false, extS := false, extU := false, paging := false }

theorem test_wf_extension :
    ∀ i ∈ [Instr.mul 5 6 7, .lr_w false false 5 6, .fadd_s 5 6 7 0, .fadd_d 5 6 7 0, .fadd_h 5 6 7 0, .fcvt_d_h 5 6 0,
        .c_nop 0, .c_fld 0 0 0, .c_flw 0 0 0, .csrrw 5 6 0x340, .fence_i 0 0 0, .sret, .sh1add 5 6 7, .andn 5 6 7,
        .clmul 5 6 7, .bclr 5 6 7, .c_lbu 0 0 0, .c_sext_b 0, .c_zext_w 0, .c_mul 0 0, .cm_push 4 0, .cm_jt 0,
        .czero_eqz 5 6 7], (i.row bare).rejected bare = some .notConfigured := by decide +kernel

/-- Prerequisites beside the extension itself (30_encoding.md R190, 00_scope.md R17). -/
theorem test_wf_prerequisites :
    Instr.wf { Config.default with extZbb := false } (.c_sext_b 0) = false ∧
    Instr.wf { Config.default with extZba := false } (.c_zext_w 0) = false ∧
    Instr.wf { Config.default with extM := false } (.c_mul 0 0) = false ∧
    Instr.wf { Config.default with extD := false } (.fcvt_d_h 5 6 0) = false ∧
    Instr.wf .rv64Zc (.c_fld 0 0 0) = false ∧ Instr.wf { Config.rv32 with extF := false } (.c_flw 0 0 0) = false := by
  decide +kernel

theorem test_wf_xlen :
    (∀ i ∈ [Instr.addiw 5 6 1, .ld 5 6 0, .fcvt_l_s 5 6 0, .fmv_x_d 5 6, .c_ld 0 0 0, .c_addiw 8 1, .add_uw 5 6 7, .zext_h_rv64 5 6],
      (i.row .rv32).rejected .rv32 = some .otherXlen) ∧
    (∀ i ∈ [Instr.c_jal 4, .c_flw 0 0 0, .rev8_rv32 5 6], (i.row .default).rejected .default = some .otherXlen) := by decide +kernel

/-- The base with RV32E. -/
def rve : Config := { Config.rv32Zc with rv32e := true }

theorem test_wf_rv32e :
    (∀ i ∈ [Instr.add 16 6 7, .add 5 16 7, .add 5 6 16, .c_mv 16 1, .lw 5 31 0],
      (i.row rve).rejected rve = some .rv32eRegister) ∧
    Instr.wf rve (.add 15 15 15) = true ∧ Instr.wf rve (.fadd_s 31 31 31 0) = true := by decide +kernel

theorem test_wf_operands_rv32 :
    ∀ i ∈ [Instr.slli 5 6 32, .srli 5 6 32, .srai 5 6 32, .rori 5 6 32, .bclri 5 6 32, .bexti 5 6 32, .binvi 5 6 32,
        .bseti 5 6 32, .c_srli 0 32, .c_srai 0 32, .c_slli 8 32], (i.row .rv32).rejected .rv32 = some .reservedOperand := by
  decide +kernel

theorem test_wf_operands :
    (∀ i ∈ [Instr.c_addi4spn 0 0, .c_addi 0 1, .c_addiw 0 1, .c_addi16sp 0, .c_lui 2 1, .c_lui 8 0, .c_lwsp 0 1, .c_ldsp 0 1,
        .c_jr 0, .c_mv 8 0, .c_jalr 0, .c_add 8 0], (i.row .default).rejected .default = some .reservedOperand) ∧
    (∀ i ∈ [Instr.cm_push 3 0, .cm_pop 3 0, .cm_popretz 3 0, .cm_popret 3 0, .cm_mvsa01 1 1, .cm_jalt 31],
      (i.row .rv64Zc).rejected .rv64Zc = some .reservedOperand) ∧
    (∀ i ∈ [Instr.cm_push 7 0, .cm_mvsa01 0 2, .cm_mva01s 2 0], (i.row rve).rejected rve = some .reservedOperand) := by
  decide +kernel

/-- What the configuration check refuses. -/
theorem test_wf_config :
    (∀ c ∈ [Config.default, .rv64Zc, .rv32, .rv32Zc, rve, bare,
        { Config.default with memMap := [{ Config.mainRegion with size := 2 ^ 60 }] }], c.wf = true) ∧
    (∀ c ∈ [{ Config.default with extF := false }, { Config.default with extF := false, extD := false },
        { Config.default with extU := false }, { Config.default with extC := false }, { Config.rv64Zc with extZicsr := false },
        { Config.default with extZicsr := false }, { Config.default with extZcmp := true }, { Config.default with rv32e := true },
        { Config.default with harts := 0 }, { Config.default with hartId := 1 }, { Config.default with harts := 4096 },
        { Config.default with granule := 4 }, { Config.default with granule := 12 },
        { Config.default with extS := false }, { Config.default with asidLen := 17 }, { Config.rv32 with asidLen := 10 },
        { Config.default with memMap := [Config.mainRegion, Config.mainRegion] },
        { Config.default with clintBase := 0x02000004 }, { Config.default with resetPc := 0x80000002 },
        { Config.rv32 with resetPc := 0x180000000 }, { Config.default with resetPc := 0x1000 }], c.wf = false) := by decide +kernel

/-- Words the decoder refuses, by name (30_encoding.md R150, R190 to R195). -/
theorem test_decode_refused :
    decodeBytes .default [0x1F, 0, 0, 0] = .error .longFormat ∧ decodeBytes .default [0x13, 0, 0] = .error .truncated ∧
    decode .default (.half 0) = .error .reservedOperand ∧ decode .default (.word 0x80007033) = .error .unallocated ∧
    decode .rv32 (.word 0x02031293) = .error .reservedOperand ∧ decode .rv32 (.word 0x0013029B) = .error .otherXlen ∧
    decode bare (.word 0x027302B3) = .error .notConfigured ∧ decode rve (.word 0x00730833) = .error .rv32eRegister := by
  decide +kernel

/-! ### One step: the worked examples of the spec -/

/-- The state after reset with `x6` and `x7` set. -/
def at' (c : Config) (a b : Word) : State := ((State.resetWith c).wx 6 a).wx 7 b

/-- The next state, if the outcome is one. -/
def out : Result → Option State
  | .next t => some t
  | _ => none

/-- From `x6` and `x7` as given the instruction leaves the value in `x5`. -/
abbrev Gives (c : Config) (l : List (Instr × Word × Word × Word)) : Prop :=
  ∀ p ∈ l, (out (exec p.1 (at' c p.2.1 p.2.2.1))).map (fun t => t.rx 5) = some p.2.2.2

/-- 40_rv_i.md R221 to R241. -/
theorem test_base_rv32 : Gives .rv32
    [(.lui 5 0x12345, 0, 0, 0x12345000), (.auipc 5 1, 0, 0, 0x80001000), (.slti 5 6 0xFFF, 0x80000000, 0, 1),
    (.sltiu 5 6 0xFFF, 0xFFFFFFFF, 0, 0), (.xori 5 6 0xFFF, 0x0000FFFF, 0, 0xFFFF0000), (.slli 5 6 3, 0x10000001, 0, 0x80000008),
    (.srli 5 6 4, 0x80000000, 0, 0x08000000), (.srai 5 6 4, 0x80000000, 0, 0xF8000000),
    (.add 5 6 7, 0x7FFFFFFF, 1, 0x80000000), (.sll 5 6 7, 1, 33, 2), (.srl 5 6 7, 0x80000000, 31, 1),
    (.sra 5 6 7, 0x80000000, 31, 0xFFFFFFFF)] := by decide +kernel

theorem test_base_rv64 : Gives .default
    [(.lui 5 0x80000, 0, 0, 0xFFFFFFFF80000000), (.addi 5 6 0xFFF, 0, 0, 0xFFFFFFFFFFFFFFFF), (.ori 5 6 0x0F0, 0x0F, 0, 0xFF),
    (.andi 5 6 0xFF, 0x12345678, 0, 0x78), (.sub 5 6 7, 0, 1, 0xFFFFFFFFFFFFFFFF), (.sll 5 6 7, 1, 33, 0x200000000),
    (.slt 5 6 7, 0xFFFFFFFFFFFFFFFF, 0, 1), (.sltu 5 6 7, 0xFFFFFFFFFFFFFFFF, 0, 0), (.xor 5 6 6, 9, 0, 0),
    (.or 5 6 7, 0xF0, 0x0F, 0xFF), (.and 5 6 7, 0xFC, 0x3F, 0x3C)] := by decide +kernel

/-- 41_rv64i.md R300 to R308. -/
theorem test_word : Gives .default
    [(.addiw 5 6 1, 0x7FFFFFFF, 0, 0xFFFFFFFF80000000), (.addiw 5 6 0, 0x123456789ABCDEF0, 0, 0xFFFFFFFF9ABCDEF0),
    (.slliw 5 6 31, 1, 0, 0xFFFFFFFF80000000), (.srliw 5 6 4, 0xFFFFFFFF80000000, 0, 0x08000000),
    (.srliw 5 6 0, 0xFFFFFFFF80000000, 0, 0xFFFFFFFF80000000), (.sraiw 5 6 4, 0x80000000, 0, 0xFFFFFFFFF8000000),
    (.addw 5 6 7, 0x7FFFFFFF, 1, 0xFFFFFFFF80000000), (.subw 5 6 7, 0x80000000, 1, 0x7FFFFFFF), (.sllw 5 6 7, 1, 32, 1),
    (.srlw 5 6 7, 0xFFFFFFFF80000000, 31, 1), (.sraw 5 6 7, 0x80000000, 31, 0xFFFFFFFFFFFFFFFF)] := by decide +kernel

/-- 42_m.md R321 to R334. -/
theorem test_mul_div_rv32 : Gives .rv32
    [(.mul 5 6 7, 0x80000000, 0xFFFFFFFF, 0x80000000), (.mulh 5 6 7, 0x7FFFFFFF, 0x7FFFFFFF, 0x3FFFFFFF),
    (.mulhsu 5 6 7, 0x80000000, 0xFFFFFFFF, 0x80000000), (.mulhsu 5 6 7, 0xFFFFFFFF, 0xFFFFFFFF, 0xFFFFFFFF),
    (.mulhu 5 6 7, 0xFFFFFFFF, 0xFFFFFFFF, 0xFFFFFFFE), (.div 5 6 7, 0x80000000, 0xFFFFFFFF, 0x80000000),
    (.div 5 6 7, 7, 0, 0xFFFFFFFF), (.divu 5 6 7, 0xFFFFFFFF, 2, 0x7FFFFFFF), (.rem 5 6 7, 0x80000000, 0xFFFFFFFF, 0),
    (.rem 5 6 7, 7, 0xFFFFFFFE, 1), (.remu 5 6 7, 0xFFFFFFFF, 16, 15)] := by decide +kernel

theorem test_mul_div_word : Gives .default
    [(.mulw 5 6 7, 0x10000, 0x8000, 0xFFFFFFFF80000000), (.divw 5 6 7, 0x80000000, 0xFFFFFFFF, 0xFFFFFFFF80000000),
    (.divuw 5 6 7, 5, 0, 0xFFFFFFFFFFFFFFFF), (.remw 5 6 7, 0xFFFFFFF9, 2, 0xFFFFFFFFFFFFFFFF),
    (.remuw 5 6 7, 0xFFFFFFFF, 0, 0xFFFFFFFFFFFFFFFF), (.div 5 6 7, 0xFFFFFFFFFFFFFFF9, 2, 0xFFFFFFFFFFFFFFFD)] := by
  decide +kernel

/-- 46_b.md R553 to R560, 49_zicond.md R711, R712. -/
theorem test_address_generation : Gives .default
    [(.add_uw 5 6 7, 0xFFFFFFFF80000000, 0x10, 0x80000010), (.sh1add 5 6 7, 3, 0x100, 0x106),
    (.sh1add_uw 5 6 7, 0xFFFFFFFFFFFFFFFF, 0, 0x1FFFFFFFE), (.sh2add 5 6 7, 3, 0x100, 0x10C),
    (.sh2add_uw 5 6 7, 0xFFFFFFFFFFFFFFFF, 4, 0x400000000), (.sh3add 5 6 7, 3, 0x100, 0x118),
    (.sh3add_uw 5 6 7, 0xFFFFFFFFFFFFFFFF, 8, 0x800000000), (.slli_uw 5 6 3, 0xFFFFFFFF80000001, 0, 0x400000008),
    (.czero_eqz 5 6 7, 0x1234, 0, 0), (.czero_eqz 5 6 7, 0x1234, 0x100000000, 0x1234),
    (.czero_nez 5 6 7, 0x1234, 0, 0x1234), (.czero_nez 5 6 7, 0x1234, 0x80000000, 0)] := by decide +kernel

/-- 46_b.md R561 to R576. -/
theorem test_bit_logic_rv32 : Gives .rv32
    [(.andn 5 6 7, 0xFF00FF00, 0x0F0F0F0F, 0xF000F000), (.orn 5 6 7, 0xFF00FF00, 0x0F0F0F0F, 0xFFF0FFF0),
    (.xnor 5 6 7, 0xFF00FF00, 0x0F0F0F0F, 0x0FF00FF0), (.clz 5 6, 0x00010000, 0, 15), (.clz 5 6, 0, 0, 32),
    (.ctz 5 6, 0x00010000, 0, 16), (.ctz 5 6, 0, 0, 32), (.cpop 5 6, 0xF0F0, 0, 8),
    (.max 5 6 7, 0x80000000, 0x7FFFFFFF, 0x7FFFFFFF), (.maxu 5 6 7, 0xFFFFFFFF, 1, 0xFFFFFFFF),
    (.min 5 6 7, 0xFFFFFFFF, 1, 0xFFFFFFFF), (.minu 5 6 7, 0xFFFFFFFF, 1, 1), (.sext_b 5 6, 0x1280, 0, 0xFFFFFF80),
    (.sext_h 5 6, 0x00128000, 0, 0xFFFF8000), (.zext_h_rv32 5 6, 0xFFFF8001, 0, 0x8001)] := by decide +kernel

/-- 46_b.md R577 to R587. -/
theorem test_bit_rotations_rv32 : Gives .rv32
    [(.rol 5 6 7, 0x80000001, 33, 3), (.ror 5 6 7, 3, 1, 0x80000001), (.rori 5 6 3, 9, 0, 0x20000001),
    (.orc_b 5 6, 0x00100001, 0, 0x00FF00FF), (.rev8_rv32 5 6, 0x11223344, 0, 0x44332211),
    (.clmul 5 6 7, 0x12345678, 0x9ABCDEF0, 0x5CD25A80), (.clmulh 5 6 7, 0x12345678, 0x9ABCDEF0, 0x08860E94),
    (.clmulr 5 6 7, 0x12345678, 0x9ABCDEF0, 0x110C1D28)] := by decide +kernel

theorem test_bit_words : Gives .default
    [(.clzw 5 6, 0x100000001, 0, 31), (.ctzw 5 6, 0xFFFFFFFF00000000, 0, 32), (.cpopw 5 6, 0xFFFFFFFF00000003, 0, 2),
    (.zext_h_rv64 5 6, 0xFFFF8001, 0, 0x8001), (.rolw 5 6 7, 0x40000000, 1, 0xFFFFFFFF80000000),
    (.roriw 5 6 3, 0xFFFFFFFF00000004, 0, 0xFFFFFFFF80000000), (.rorw 5 6 7, 1, 1, 0xFFFFFFFF80000000),
    (.rev8_rv64 5 6, 0x1122334455667788, 0, 0x8877665544332211)] := by decide +kernel

/-- 46_b.md R588 to R595. -/
theorem test_single_bits : Gives .rv32
    [(.bclr 5 6 7, 0xFFFFFFFF, 32, 0xFFFFFFFE), (.bclri 5 6 3, 0xFF, 0, 0xF7), (.bext 5 6 7, 0x80000000, 31, 1),
    (.bexti 5 6 3, 0xF7, 0, 0), (.binv 5 6 7, 0x10, 4, 0), (.binvi 5 6 3, 0xFF, 0, 0xF7), (.bset 5 6 7, 0, 63, 0x80000000),
    (.bseti 5 6 3, 0, 0, 8)] := by decide +kernel

/-- A write to `x0` is discarded, and a source may be the destination (10_state.md R40, 40_rv_i.md R220). -/
theorem test_x0_and_aliases :
    (out (exec (.addi 0 6 5) (at' .default 1 2))).map (fun t => t.rx 0) = some 0 ∧
    (out (exec (.add 6 6 7) (at' .default 1 2))).map (fun t => t.rx 6) = some 3 ∧
    (out (exec (.cm_mva01s 0 0) { at' .rv64Zc 1 2 with x := (Vector.replicate 32 0).set 8 (7 : Word) })).map
      (fun t => (t.rx 10, t.rx 11)) = some (7, 7) := by decide +kernel

/-! ### Control transfer (40_rv_i.md R272 to R280) -/

/-- From `x6` and `x7` as given the instruction leaves `pc` and `x1`. -/
abbrev Goes (c : Config) (l : List (Instr × Word × Word × Word × Word)) : Prop :=
  ∀ p ∈ l, (out (exec p.1 (at' c p.2.1 p.2.2.1))).map (fun t => (t.pc, t.rx 1)) = some p.2.2.2

theorem test_jumps : Goes .rv32
    [(.jal 1 1024, 0, 0, 0x80000800, 0x80000004), (.jal 0 0xFFFFC, 0, 0, 0x7FFFFFF8, 0),
    (.jalr 1 6 4, 0x80001001, 0, 0x80001004, 0x80000004), (.beq 6 7 8, 5, 5, 0x80000010, 0), (.bne 6 7 8, 5, 5, 0x80000004, 0),
    (.blt 6 7 8, 0xFFFFFFFF, 0, 0x80000010, 0), (.bge 6 7 8, 5, 5, 0x80000010, 0), (.bltu 6 7 8, 0xFFFFFFFF, 0, 0x80000004, 0),
    (.bgeu 6 7 8, 0xFFFFFFFF, 0, 0x80000010, 0), (.c_jal 4, 0, 0, 0x80000008, 0x80000002), (.c_j 0x7FE, 0, 0, 0x7FFFFFFC, 0),
    (.c_jr 6, 0x80000105, 0, 0x80000104, 0), (.c_jalr 6, 0x80000200, 0, 0x80000200, 0x80000002),
    (.c_beqz 0 4, 0, 0, 0x80000008, 0), (.c_bnez 0 4, 0, 0, 0x80000002, 0)] := by decide +kernel

/-- Without EXT_C a target with bit 1 set is misaligned, and `x1` is not written (R272, 60_exceptions.md R724). -/
theorem test_misaligned_jump :
    (out (exec (.jal 1 1) (at' { Config.default with extC := false, extZcb := false } 0 0))).map
      (fun t => (t.csr.mcause, t.csr.mtval, t.csr.mepc, t.rx 1)) = some (0, 0x80000002, 0x80000000, 0) := by decide +kernel

/-! ### Compressed arithmetic (45_c.md, 48_zc.md) -/

/-- From `x8` and `x9` as given the instruction leaves the value in `x8`. -/
abbrev GivesC (c : Config) (l : List (Instr × Word × Word × Word)) : Prop :=
  ∀ p ∈ l, (out (exec p.1 (((State.resetWith c).wx 8 p.2.1).wx 9 p.2.2.1))).map (fun t => t.rx 8) = some p.2.2.2

theorem test_compressed : GivesC .default
    [(.c_addi4spn 0 4, 5, 0, 16), (.c_addi 8 63, 5, 0, 4), (.c_addiw 8 1, 0x7FFFFFFF, 0, 0xFFFFFFFF80000000),
    (.c_li 8 63, 5, 0, 0xFFFFFFFFFFFFFFFF), (.c_lui 8 63, 5, 0, 0xFFFFFFFFFFFFF000), (.c_srli 0 4, 0x80, 0, 8),
    (.c_srai 0 4, 0x8000000000000000, 0, 0xF800000000000000), (.c_andi 0 48, 0xFF, 0, 0xF0), (.c_sub 0 1, 5, 7, 0xFFFFFFFFFFFFFFFE),
    (.c_xor 0 1, 5, 7, 2), (.c_or 0 1, 5, 2, 7), (.c_and 0 1, 5, 6, 4), (.c_subw 0 1, 0, 1, 0xFFFFFFFFFFFFFFFF),
    (.c_addw 0 1, 0x7FFFFFFF, 1, 0xFFFFFFFF80000000), (.c_slli 8 63, 1, 0, 0x8000000000000000), (.c_mv 8 9, 5, 7, 7),
    (.c_add 8 9, 5, 7, 12), (.c_nop 0, 5, 7, 5)] := by decide +kernel

theorem test_zcb : GivesC .default
    [(.c_zext_b 0, 0x1FF, 0, 0xFF), (.c_sext_b 0, 0x180, 0, 0xFFFFFFFFFFFFFF80), (.c_zext_h 0, 0x1FFFF, 0, 0xFFFF),
    (.c_sext_h 0, 0x18000, 0, 0xFFFFFFFFFFFF8000), (.c_zext_w 0, 0x1FFFFFFFF, 0, 0xFFFFFFFF), (.c_not 0, 0, 0, 0xFFFFFFFFFFFFFFFF),
    (.c_mul 0 1, 6, 7, 42)] := by decide +kernel

theorem test_c_addi16sp :
    (out (exec (.c_addi16sp 62) ((State.resetWith .default).wx 2 0x80001000))).map (fun t => t.rx 2) = some 0x80000FE0 := by
  decide +kernel

theorem test_cm_mvsa01 :
    (out (exec (.cm_mvsa01 2 7) (((State.resetWith .rv64Zc).wx 10 5).wx 11 6))).map (fun t => (t.rx 18, t.rx 23)) =
      some (5, 6) := by decide +kernel

/-! ### Memory -/

/-- `x6` holds an address, `x7` and `x8` hold data, eight bytes stand at the address. -/
def mem8 (c : Config) (v x7 : Word) : State :=
  { at' c 0x80001000 x7 with mem := memWrite [] 0x80001000 8 v }

/-- The load at `x6` leaves the value in `x5`, where the memory holds the bytes. -/
abbrev Loads (c : Config) (l : List (Instr × Word × Word)) : Prop :=
  ∀ p ∈ l, (out (exec p.1 (mem8 c p.2.1 0))).map (fun t => t.rx 5) = some p.2.2

/-- 40_rv_i.md R264 to R268, 41_rv64i.md R309, R310. -/
theorem test_loads_rv32 : Loads .rv32
    [(.lb 5 6 0, 0x80, 0xFFFFFF80), (.lh 5 6 2, 0x92340000, 0xFFFF9234), (.lw 5 6 4, 0x1234567800000000, 0x12345678),
    (.lbu 5 6 0, 0x80, 0x80), (.lhu 5 6 2, 0x92340000, 0x9234)] := by decide +kernel

theorem test_loads_rv64 : Loads .default
    [(.lw 5 6 0, 0x80000000, 0xFFFFFFFF80000000), (.lwu 5 6 0, 0x80000000, 0x80000000),
    (.ld 5 6 0, 0x1122334455667788, 0x1122334455667788), (.lr_w false false 5 6, 0x80000001, 0xFFFFFFFF80000001),
    (.lr_d false false 5 6, 0x8000000000000001, 0x8000000000000001)] := by decide +kernel

/-- The instruction with `x7` as given leaves the eight bytes at `x6` as given. -/
abbrev StoresAt (c : Config) (l : List (Instr × Word × Word × Word)) : Prop :=
  ∀ p ∈ l, (out (exec p.1 (mem8 c p.2.1 p.2.2.1))).map (fun t => memRead t.mem 0x80001000 8) = some p.2.2.2

/-- 40_rv_i.md R269 to R271, 41_rv64i.md R311. -/
theorem test_stores : StoresAt .default
    [(.sb 6 7 1, 0, 0x12345678, 0x7800), (.sh 6 7 2, 0, 0x12345678, 0x56780000), (.sw 6 7 4, 0, 0x12345678, 0x1234567800000000),
    (.sd 6 7 0, 5, 0x1122334455667788, 0x1122334455667788)] := by decide +kernel

/-- 43_a.md R361 to R381: the memory after. -/
theorem test_amo_memory : StoresAt .default
    [(.sc_w false false 5 6 7, 5, 9, 5), (.amoswap_w false false 5 6 7, 0x11111111, 0x22222222, 0x22222222),
    (.amoadd_w false false 5 6 7, 0xFFFFFFFF, 1, 0), (.amoxor_w false false 5 6 7, 0xFF00FF00, 0x0FF00FF0, 0xF0F0F0F0),
    (.amoand_w false false 5 6 7, 0xFF00FF00, 0x0FF00FF0, 0x0F000F00), (.amoor_w false false 5 6 7, 0xFF00FF00, 0x0FF00FF0, 0xFFF0FFF0),
    (.amomin_w false false 5 6 7, 0x80000000, 1, 0x80000000), (.amomax_w false false 5 6 7, 0x80000000, 1, 1),
    (.amominu_w false false 5 6 7, 0x80000000, 1, 1), (.amomaxu_w false false 5 6 7, 0x80000000, 1, 0x80000000),
    (.sc_d false false 5 6 7, 5, 9, 5), (.amoswap_d false false 5 6 7, 5, 9, 9), (.amoadd_d false false 5 6 7, 0xFFFFFFFFFFFFFFFF, 1, 0),
    (.amoxor_d false false 5 6 7, 5, 9, 12), (.amoand_d false false 5 6 7, 5, 9, 1), (.amoor_d false false 5 6 7, 5, 9, 13),
    (.amomin_d false false 5 6 7, 0x8000000000000000, 0, 0x8000000000000000), (.amomax_d false false 5 6 7, 5, 0xFFFFFFFFFFFFFFFF, 5),
    (.amominu_d false false 5 6 7, 0x8000000000000000, 0, 0), (.amomaxu_d false false 5 6 7, 5, 0xFFFFFFFFFFFFFFFF, 0xFFFFFFFFFFFFFFFF)] := by
  decide +kernel

/-- 43_a.md R354, R357: what goes to the register. -/
theorem test_amo_register :
    (out (exec (.amominu_w false false 5 6 7) (mem8 .default 0x80000000 1))).map (fun t => t.rx 5) = some 0xFFFFFFFF80000000 ∧
    (out (exec (.sc_w false false 5 6 7) (mem8 .default 5 9))).map (fun t => t.rx 5) = some 1 := by decide +kernel

/-- `lr` registers the address and the width (43_a.md R353). -/
theorem test_lr_reserves :
    (out (exec (.lr_w true true 5 6) (mem8 .default 0 0))).map (fun t => t.resv) = some (some (0x80001000, 4)) := by decide +kernel

/-- A misaligned access traps with its address (20_memory.md R111); one outside the map is an access fault (R105). -/
theorem test_access_traps :
    (out (exec (.lw 5 6 1) (mem8 .default 0 0))).map (fun t => (t.csr.mcause, t.csr.mtval)) = some (4, 0x80001001) ∧
    (out (exec (.amoadd_w false false 5 7 6) (mem8 .default 0 2))).map (fun t => (t.csr.mcause, t.csr.mtval)) = some (6, 2) ∧
    (out (exec (.sw 7 6 0) (mem8 .default 0 0))).map (fun t => (t.csr.mcause, t.csr.mtval)) = some (7, 0) := by decide +kernel

/-- The compressed loads and stores (45_c.md, 48_zc.md), with the address in `x8` and in `sp`. -/
def memC (c : Config) : State :=
  { (((State.resetWith c).wx 8 0x80001000).wx 2 0x80001000).wx 9 0x1122334455667788 with
    mem := memWrite [] 0x80001008 8 0x8182838485868788 }

theorem test_compressed_loads :
    (∀ p ∈ ([(.c_lw 2 0 2, 0xFFFFFFFF85868788), (.c_ld 2 0 1, 0x8182838485868788), (.c_lwsp 10 2, 0xFFFFFFFF85868788),
      (.c_ldsp 10 1, 0x8182838485868788), (.c_lbu 2 0 3, 0), (.c_lhu 2 0 1, 0), (.c_lh 2 0 1, 0)] : List (Instr × Word)),
      (out (exec p.1 (memC .default))).map (fun t => t.rx 10) = some p.2) ∧
    (∀ p ∈ ([(.c_sw 0 1 2, 0x8182838455667788), (.c_sd 0 1 1, 0x1122334455667788), (.c_swsp 9 2, 0x8182838455667788),
      (.c_sdsp 9 1, 0x1122334455667788)] : List (Instr × Word)),
      (out (exec p.1 (memC .default))).map (fun t => memRead t.mem 0x80001008 8) = some p.2) ∧
    (∀ p ∈ ([(.c_sb 0 1 3, 0x88000000), (.c_sh 0 1 1, 0x77880000)] : List (Instr × Word)),
      (out (exec p.1 (memC .default))).map (fun t => memRead t.mem 0x80001000 8) = some p.2) := by decide +kernel

/-- The memory map of the CLINT (60_exceptions.md R770): `mtimecmp` is written and read back; a byte access faults. -/
theorem test_clint :
    (out (exec (.sd 6 7 0) (at' .default 0x02004000 99))).map (fun t => t.clint.mtimecmp) = some [99] ∧
    (out (exec (.sb 6 7 0) (at' .default 0x02004000 99))).map (fun t => t.csr.mcause) = some 7 := by decide +kernel

/-- An Sv39 load through one gigapage leaf (20_memory.md R124 to R127). -/
theorem test_sv39 :
    let s := mem8 .default 0x1234 0
    let t := { s with
      priv := .s, csr := { s.csr with satp := 0x8000000000080002#64 }, mem := memWrite s.mem 0x80002010 8 0x200000CF#64 }
    (out (exec (.ld 5 6 0) t)).map (fun u => u.rx 5) = some 0x1234 ∧
    (out (exec (.ld 5 6 0) { t with mem := memWrite s.mem 0x80002010 8 0x2000008F#64 })).map
      (fun u => (u.csr.mcause, u.csr.mtval)) = some (13, 0x80001000) := by decide +kernel

/-! ### Zcmp and Zcmt (48_zc.md R692 to R701) -/

theorem test_cm_push :
    let s := ((((State.resetWith .rv64Zc).wx 2 0x80001000).wx 1 0x11).wx 8 0x22).wx 9 0x33
    (out (exec (.cm_push 6 0) s)).map (fun t => (t.rx 2, memRead t.mem 0x80000FF8 8, memRead t.mem 0x80000FF0 8,
      memRead t.mem 0x80000FE8 8)) = some (0x80000FE0, 0x33, 0x22, 0x11) := by decide +kernel

/-- The state a pop starts from. -/
def popState : State :=
  { ((State.resetWith .rv64Zc).wx 2 0x80000FE0).wx 10 5 with
    mem := memWrite (memWrite (memWrite [] 0x80000FF8 8 0x33) 0x80000FF0 8 0x22) 0x80000FE8 8 0x80000101 }

theorem test_cm_pops :
    (out (exec (.cm_pop 6 0) popState)).map (fun t => (t.rx 2, t.rx 9, t.rx 8, t.rx 1, t.pc)) =
      some (0x80001000, 0x33, 0x22, 0x80000101, 0x80000002) ∧
    (out (exec (.cm_popret 6 0) popState)).map (fun t => (t.rx 2, t.rx 10, t.pc)) = some (0x80001000, 5, 0x80000100) ∧
    (out (exec (.cm_popretz 6 0) popState)).map (fun t => (t.rx 2, t.rx 10, t.pc)) = some (0x80001000, 0, 0x80000100) := by
  decide +kernel

theorem test_table_jumps :
    let s := State.resetWith .rv64Zc
    let t := { s with
      csr := { s.csr with jvt := 0x80002000 }
      mem := memWrite (memWrite [] 0x80002028 8 0x80000101) 0x80002100 8 0x80000400 }
    (out (exec (.cm_jt 5) t)).map (fun u => (u.pc, u.rx 1)) = some (0x80000100, 0) ∧
    (out (exec (.cm_jalt 32) t)).map (fun u => (u.pc, u.rx 1)) = some (0x80000400, 0x80000002) := by decide +kernel

/-! ### CSRs and traps -/

theorem test_csr :
    (out (exec (.csrrw 5 6 0x340) (at' .default 7 0))).map (fun t => t.csr.mscratch) = some 7 ∧
    (out (exec (.csrrs 0 6 0x304) (at' .default 0xFFF 0))).map (fun t => t.csr.mie) = some 0xAAA ∧
    (out (exec (.csrrc 5 6 0x305) (at' .default 1 0))).map (fun t => t.csr.mtvec) = some 0 ∧
    (out (exec (.csrrwi 0 31 0x340) (at' .default 0 0))).map (fun t => t.csr.mscratch) = some 31 ∧
    (out (exec (.csrrsi 0 8 0x300) (at' .default 0 0))).map (fun t => t.csr.mstatus.mie) = some true ∧
    (out (exec (.csrrci 5 8 0x300) (at' .default 0 0))).map (fun t => t.csr.mstatus.mie) = some false := by decide +kernel

/-- A read-only CSR and an absent one are refused (10_state.md R52). -/
theorem test_csr_refused :
    (out (exec (.csrrw 5 6 0xF14) (at' .default 7 0))).map (fun t => (t.csr.mcause, t.csr.mtval)) = some (2, 0xF14312F3) ∧
    (out (exec (.csrrs 5 0 0x7C0) (at' .default 7 0))).map (fun t => t.csr.mcause) = some 2 := by decide +kernel

/-- 60_exceptions.md R725, R728, R740. -/
theorem test_calls :
    (out (exec .ecall (at' .default 0 0))).map (fun t => (t.csr.mcause, t.csr.mtval, t.csr.mepc, t.csr.mstatus.mpp)) =
      some (11, 0, 0x80000000, .m) ∧
    (out (exec .ebreak (at' .default 0 0))).map (fun t => (t.csr.mcause, t.csr.mtval)) = some (3, 0x80000000) ∧
    (out (exec .c_ebreak (at' .default 0 0))).map (fun t => (t.csr.mcause, t.csr.mtval)) = some (3, 0x80000000) ∧
    (out (exec (.fcvt_q_h 5 6 0) (at' .default 0 0))).map (fun t => (t.csr.mcause, t.csr.mtval)) = some (2, 0x462302D3) ∧
    (out (exec (.fcvt_h_q 5 6 7) (at' .default 0 0))).map (fun t => (t.csr.mcause, t.csr.mtval)) = some (2, 0x443372D3) := by
  decide +kernel

/-- A delegated call from U-mode (60_exceptions.md R741). -/
theorem test_delegated_call :
    let s := at' .default 0 0
    (out (exec .ecall { s with priv := .u, csr := { s.csr with medeleg := 0x100, stvec := 0x80000400 } })).map
      (fun t => (t.priv, t.pc, t.csr.scause, t.csr.sepc, t.csr.mstatus.spp)) = some (.s, 0x80000400, 8, 0x80000000, false) := by
  decide +kernel

/-- 60_exceptions.md R750, R751. -/
theorem test_returns :
    let s := at' .default 0 0
    let ms := { s.csr.mstatus with mpie := true, mpp := .s, spie := true, spp := true }
    (out (exec .mret { s with csr := { s.csr with mepc := 0x80000100, mstatus := ms } })).map
      (fun t => (t.priv, t.pc, t.csr.mstatus.mie, t.csr.mstatus.mpp)) = some (.s, 0x80000100, true, .u) ∧
    (out (exec .sret { s with csr := { s.csr with sepc := 0x80000200, mstatus := ms } })).map
      (fun t => (t.priv, t.pc, t.csr.mstatus.sie, t.csr.mstatus.spp)) = some (.s, 0x80000200, true, false) := by decide +kernel

theorem test_fences :
    ∀ i ∈ [Instr.fence 0 3 3 0 0, .fence_i 0 0 0, .sfence_vma 0 0, .wfi],
      (out (exec i (at' .default 0 0))).map (fun t => t.pc) = some 0x80000004 := by decide +kernel

/-! ### Floating point (44_fd.md, 47_zfh.md) -/

/-- `f6`, `f7`, `f8` hold the values boxed, the unit is on, `frm` is given. -/
def fpAt (f : Fmt) (frm : BitVec 3) (a b d : Word) : State :=
  let s := State.resetWith .default
  { (((s.wf 6 (box f a)).wf 7 (box f b)).wf 8 (box f d)) with frm := frm }

/-- 1.0. -/
def one : Fmt → Word
  | .h => 0x3C00
  | .s => 0x3F800000
  | .d => 0x3FF0000000000000

/-- The instruction leaves the value boxed in `f5`, and the flags. -/
abbrev GivesF (f g : Fmt) (l : List (Instr × Word × Word × Word × Flags)) : Prop :=
  ∀ p ∈ l, (out (exec p.1 (fpAt f 0 p.2.1 p.2.2.1 (one f)))).map (fun t => (t.rf 5, t.fflags)) =
    some (box g p.2.2.2.1, p.2.2.2.2)

/-- The instruction leaves the value in `x5`, and the flags. -/
abbrev GivesX (f : Fmt) (l : List (Instr × Word × Word × Word × Flags)) : Prop :=
  ∀ p ∈ l, (out (exec p.1 (fpAt f 0 p.2.1 p.2.2.1 0))).map (fun t => (t.rx 5, t.fflags)) = some p.2.2.2

/-- The instruction converts `x6` to the value boxed in `f5`, with the flags. -/
abbrev Converts (g : Fmt) (l : List (Instr × Word × Word × Flags)) : Prop :=
  ∀ p ∈ l, (out (exec p.1 ((fpAt .d 0 0 0 0).wx 6 p.2.1))).map (fun t => (t.rf 5, t.fflags)) =
    some (box g p.2.2.1, p.2.2.2)

/-- 44_fd.md R410 to R423. -/
theorem test_single : GivesF .s .s
    [(.fmadd_s 5 6 7 8 7, 0x40000000, 0x40400000, 0x40E00000, 0), (.fmsub_s 5 6 7 8 7, 0x40000000, 0x40400000, 0x40A00000, 0),
    (.fnmsub_s 5 6 7 8 7, 0x40000000, 0x40400000, 0xC0A00000, 0), (.fnmadd_s 5 6 7 8 7, 0x40000000, 0x40400000, 0xC0E00000, 0),
    (.fadd_s 5 6 7 7, 0x4B800000, 0x3F800000, 0x4B800000, flagNX), (.fadd_s 5 6 7 7, 0x7F800000, 0xFF800000, 0x7FC00000, flagNV),
    (.fsub_s 5 6 7 2, 0x3F800000, 0x3F800000, 0x80000000, 0), (.fmul_s 5 6 7 0, 0x7F7FFFFF, 0x40000000, 0x7F800000, flagOF ||| flagNX),
    (.fdiv_s 5 6 7 0, 0x3F800000, 0x40400000, 0x3EAAAAAB, flagNX), (.fdiv_s 5 6 7 0, 0x3F800000, 0, 0x7F800000, flagDZ),
    (.fsqrt_s 5 6 0, 0x40000000, 0, 0x3FB504F3, flagNX), (.fsqrt_s 5 6 0, 0x80000000, 0, 0x80000000, 0),
    (.fsgnj_s 5 6 7, 0x3F800000, 0xC0000000, 0xBF800000, 0), (.fsgnjn_s 5 6 7, 0x3F800000, 0xC0000000, 0x3F800000, 0),
    (.fsgnjx_s 5 6 7, 0xBF800000, 0xC0000000, 0x3F800000, 0), (.fmin_s 5 6 7, 0x7F800001, 0x3F800000, 0x3F800000, flagNV),
    (.fmin_s 5 6 7, 0, 0x80000000, 0x80000000, 0), (.fmax_s 5 6 7, 0x7FC00000, 0x7FC00000, 0x7FC00000, 0),
    (.fmax_s 5 6 7, 0x80000000, 0, 0, 0)] := by decide +kernel

/-- 44_fd.md R424 to R430, R462, R463. -/
theorem test_single_to_integer : GivesX .s
    [(.fcvt_w_s 5 6 1, 0x406CCCCD, 0, 3, flagNX), (.fcvt_w_s 5 6 0, 0x7FC00000, 0, 0x7FFFFFFF, flagNV),
    (.fcvt_wu_s 5 6 1, 0x4F32D05E, 0, 0xFFFFFFFFB2D05E00, 0), (.fcvt_wu_s 5 6 1, 0xBF800000, 0, 0, flagNV),
    (.fcvt_l_s 5 6 1, 0x501502F9, 0, 0x2540BE400, 0), (.fcvt_lu_s 5 6 1, 0x7F800000, 0, 0xFFFFFFFFFFFFFFFF, flagNV),
    (.fmv_x_w 5 6, 0xBF800000, 0, 0xFFFFFFFFBF800000, 0), (.feq_s 5 6 7, 0, 0x80000000, 1, 0),
    (.feq_s 5 6 7, 0x7F800001, 0x3F800000, 0, flagNV), (.flt_s 5 6 7, 0x3F800000, 0x7FC00000, 0, flagNV),
    (.flt_s 5 6 7, 0x3F800000, 0x40000000, 1, 0), (.fle_s 5 6 7, 0x80000000, 0, 1, 0), (.fclass_s 5 6, 0x80000001, 0, 4, 0),
    (.fclass_s 5 6, 0x7FC00000, 0, 0x200, 0)] := by decide +kernel

/-- 44_fd.md R434 to R447. -/
theorem test_double : GivesF .d .d
    [(.fmadd_d 5 6 7 8 7, 0x4000000000000000, 0x4008000000000000, 0x401C000000000000, 0),
    (.fmsub_d 5 6 7 8 7, 0x4000000000000000, 0x4008000000000000, 0x4014000000000000, 0),
    (.fnmsub_d 5 6 7 8 7, 0x4000000000000000, 0x4008000000000000, 0xC014000000000000, 0),
    (.fnmadd_d 5 6 7 8 7, 0x4000000000000000, 0x4008000000000000, 0xC01C000000000000, 0),
    (.fadd_d 5 6 7 0, 0x3FB999999999999A, 0x3FC999999999999A, 0x3FD3333333333334, flagNX),
    (.fsub_d 5 6 7 0, 0x4008000000000000, 0x3FF0000000000000, 0x4000000000000000, 0),
    (.fmul_d 5 6 7 0, 0x3FF8000000000000, 0x4000000000000000, 0x4008000000000000, 0),
    (.fdiv_d 5 6 7 0, 0x3FF0000000000000, 0x4008000000000000, 0x3FD5555555555555, flagNX),
    (.fdiv_d 5 6 7 0, 0xBFF0000000000000, 0, 0xFFF0000000000000, flagDZ),
    (.fsqrt_d 5 6 0, 0x4000000000000000, 0, 0x3FF6A09E667F3BCD, flagNX),
    (.fsgnj_d 5 6 7, 0x3FF0000000000000, 0xC000000000000000, 0xBFF0000000000000, 0),
    (.fsgnjn_d 5 6 7, 0x3FF0000000000000, 0xC000000000000000, 0x3FF0000000000000, 0),
    (.fsgnjx_d 5 6 7, 0xBFF0000000000000, 0xC000000000000000, 0x3FF0000000000000, 0),
    (.fmin_d 5 6 7, 0x3FF0000000000000, 0x4000000000000000, 0x3FF0000000000000, 0),
    (.fmax_d 5 6 7, 0x3FF0000000000000, 0x4000000000000000, 0x4000000000000000, 0)] := by decide +kernel

/-- 44_fd.md R450 to R455, R466 to R468. -/
theorem test_double_to_integer : GivesX .d
    [(.feq_d 5 6 7, 0x3FF0000000000000, 0x3FF0000000000000, 1, 0), (.flt_d 5 6 7, 0x3FF0000000000000, 0x4000000000000000, 1, 0),
    (.fle_d 5 6 7, 0x4000000000000000, 0x3FF0000000000000, 0, 0), (.fclass_d 5 6, 1, 0, 0x20, 0),
    (.fcvt_w_d 5 6 1, 0x41E0000000000000, 0, 0x7FFFFFFF, flagNV), (.fcvt_w_d 5 6 1, 0xC1E0000000000000, 0, 0xFFFFFFFF80000000, 0),
    (.fcvt_wu_d 5 6 1, 0x41EFFFFFFFE00000, 0, 0xFFFFFFFFFFFFFFFF, 0),
    (.fcvt_l_d 5 6 1, 0xC00D99999999999A, 0, 0xFFFFFFFFFFFFFFFD, flagNX),
    (.fcvt_lu_d 5 6 1, 0x43F0000000000000, 0, 0xFFFFFFFFFFFFFFFF, flagNV),
    (.fmv_x_d 5 6, 0x3FF0000000000000, 0, 0x3FF0000000000000, 0)] := by decide +kernel

/-- 47_zfh.md R622 to R635. -/
theorem test_half : GivesF .h .h
    [(.fmadd_h 5 6 7 8 7, 0x4000, 0x4200, 0x4700, 0), (.fmsub_h 5 6 7 8 7, 0x4000, 0x4200, 0x4500, 0),
    (.fnmsub_h 5 6 7 8 7, 0x4000, 0x4200, 0xC500, 0), (.fnmadd_h 5 6 7 8 7, 0x4000, 0x4200, 0xC700, 0),
    (.fadd_h 5 6 7 0, 0x6800, 0x3C00, 0x6800, flagNX), (.fadd_h 5 6 7 1, 0x7BFF, 0x7BFF, 0x7BFF, flagOF ||| flagNX),
    (.fsub_h 5 6 7 2, 0x3C00, 0x3C00, 0x8000, 0), (.fmul_h 5 6 7 0, 0x0001, 0x3800, 0, flagUF ||| flagNX),
    (.fdiv_h 5 6 7 0, 0x3C00, 0x4200, 0x3555, flagNX), (.fdiv_h 5 6 7 0, 0, 0, 0x7E00, flagNV),
    (.fsqrt_h 5 6 0, 0x4000, 0, 0x3DA8, flagNX), (.fsqrt_h 5 6 0, 0xBC00, 0, 0x7E00, flagNV),
    (.fsgnj_h 5 6 7, 0x3C00, 0xC000, 0xBC00, 0), (.fsgnjn_h 5 6 7, 0x3C00, 0xC000, 0x3C00, 0),
    (.fsgnjx_h 5 6 7, 0xBC00, 0xC000, 0x3C00, 0), (.fmin_h 5 6 7, 0x7D00, 0x3C00, 0x3C00, flagNV),
    (.fmax_h 5 6 7, 0x3C00, 0x4000, 0x4000, 0)] := by decide +kernel

/-- 47_zfh.md R643 to R649, R655, R656. -/
theorem test_half_to_integer : GivesX .h
    [(.feq_h 5 6 7, 0x3C00, 0x3C00, 1, 0), (.flt_h 5 6 7, 0x3C00, 0x7E00, 0, flagNV), (.fle_h 5 6 7, 0x8000, 0, 1, 0),
    (.fclass_h 5 6, 0x8001, 0, 4, 0), (.fcvt_w_h 5 6 0, 0xC366, 0, 0xFFFFFFFFFFFFFFFC, flagNX),
    (.fcvt_w_h 5 6 4, 0x4100, 0, 3, flagNX), (.fcvt_wu_h 5 6 1, 0xB800, 0, 0, flagNX), (.fcvt_l_h 5 6 7, 0x7BFF, 0, 65504, 0),
    (.fcvt_lu_h 5 6 7, 0xBC00, 0, 0, flagNV), (.fmv_x_h 5 6, 0xBC00, 0, 0xFFFFFFFFFFFFBC00, 0)] := by decide +kernel

/-- 44_fd.md R448, R449, 47_zfh.md R636 to R639. -/
theorem test_format_conversions :
    GivesF .d .s [(.fcvt_s_d 5 6 0, 0x3FB999999999999A, 0, 0x3DCCCCCD, flagNX)] ∧
    GivesF .s .d [(.fcvt_d_s 5 6 0, 0x3FC00000, 0, 0x3FF8000000000000, 0), (.fcvt_d_s 5 6 0, 0x7F800001, 0, 0x7FF8000000000000, flagNV)] ∧
    GivesF .h .s [(.fcvt_s_h 5 6 0, 0x0001, 0, 0x33800000, 0)] ∧
    GivesF .s .h [(.fcvt_h_s 5 6 0, 0x3DCCCCCD, 0, 0x2E66, flagNX), (.fcvt_h_s 5 6 0, 0x322BCC77, 0, 0, flagUF ||| flagNX)] ∧
    GivesF .h .d [(.fcvt_d_h 5 6 0, 0x0001, 0, 0x3E70000000000000, 0)] ∧
    GivesF .d .h [(.fcvt_h_d 5 6 0, 0x3FD5555555555555, 0, 0x3555, flagNX)] := by decide +kernel

/-- 44_fd.md R431 to R433, R456, R457, R464, R465, R469 to R471. -/
theorem test_from_integer :
    Converts .s [(.fcvt_s_w 5 6 0, 16777217, 0x4B800000, flagNX), (.fcvt_s_wu 5 6 0, 0xFFFFFFFF, 0x4F800000, flagNX),
      (.fcvt_s_l 5 6 0, 0x7FFFFFFFFFFFFFFF, 0x5F000000, flagNX), (.fcvt_s_lu 5 6 0, 0xFFFFFFFFFFFFFFFF, 0x5F800000, flagNX),
      (.fmv_w_x 5 6, 0x123456783F800000, 0x3F800000, 0)] ∧
    Converts .d [(.fcvt_d_w 5 6 0, 0xFFFFFFFFFFFFFFFF, 0xBFF0000000000000, 0), (.fcvt_d_wu 5 6 0, 0xFFFFFFFF, 0x41EFFFFFFFE00000, 0),
      (.fcvt_d_l 5 6 0, 0x20000000000001, 0x4340000000000000, flagNX), (.fcvt_d_lu 5 6 0, 0xFFFFFFFFFFFFFFFF, 0x43F0000000000000, flagNX),
      (.fmv_d_x 5 6, 0x3FF0000000000000, 0x3FF0000000000000, 0)] ∧
    Converts .h [(.fcvt_h_w 5 6 0, 65520, 0x7C00, flagOF ||| flagNX), (.fcvt_h_wu 5 6 0, 33, 0x5020, 0),
      (.fcvt_h_l 5 6 0, 0xFFFFFFFFFFFFFFFE, 0xC000, 0), (.fcvt_h_lu 5 6 2, 0xFFFFFFFFFFFFFFFF, 0x7BFF, flagOF ||| flagNX),
      (.fmv_h_x 5 6, 0x12343C00, 0x3C00, 0)] := by decide +kernel

/-- An operand that is not boxed reads as the canonical NaN (10_state.md R48, 47_zfh.md R626). -/
theorem test_unboxed :
    (out (exec (.fadd_h 5 6 7 0) ((fpAt .h 0 0x3C00 0x3C00 0).wf 6 0x3C00))).map (fun t => (t.rf 5, t.fflags)) =
      some (0xFFFFFFFFFFFF7E00, 0) := by decide +kernel

/-- Off, and a reserved rounding mode (44_fd.md R391, R395). -/
theorem test_fp_illegal :
    (out (exec (.fadd_s 5 6 7 7) (State.resetWith .default))).map (fun t => (t.csr.mcause, t.csr.mtval)) = some (2, 0x007372D3) ∧
    (out (exec (.fadd_s 5 6 7 5) (fpAt .s 0 0 0 0))).map (fun t => t.csr.mcause) = some 2 ∧
    (out (exec (.fadd_s 5 6 7 7) (fpAt .s 6 0 0 0))).map (fun t => t.csr.mcause) = some 2 := by decide +kernel

/-- Loads and stores (44_fd.md R458 to R461, 47_zfh.md R653, R654, 45_c.md). -/
def fpMem (c : Config) : State :=
  let s := { memC c with mem := memWrite [] 0x80001008 8 0x400000003F803C00 }
  ((s.wx 6 0x80001008).wf 7 0x1122334455667788).wf 9 0x1122334455667788

theorem test_fp_loads :
    (∀ p ∈ ([(.flh 5 6 0, 0xFFFFFFFFFFFF3C00), (.flw 5 6 0, 0xFFFFFFFF3F803C00), (.fld 5 6 0, 0x400000003F803C00)] : List (Instr × Word)),
      (out (exec p.1 (fpMem .default))).map (fun t => t.rf 5) = some p.2) ∧
    (∀ p ∈ ([(.c_fld 2 0 1, 0x400000003F803C00), (.c_fldsp 10 1, 0x400000003F803C00)] : List (Instr × Word)),
      (out (exec p.1 (fpMem .default))).map (fun t => t.rf 10) = some p.2) ∧
    (∀ p ∈ ([(.c_flw 2 0 2, 0xFFFFFFFF3F803C00), (.c_flwsp 10 2, 0xFFFFFFFF3F803C00)] : List (Instr × Word)),
      (out (exec p.1 (fpMem .rv32))).map (fun t => t.rf 10) = some p.2) := by decide +kernel

theorem test_fp_stores :
    (∀ p ∈ ([(.fsh 6 7 0, 0x400000003F807788), (.fsw 6 7 0, 0x4000000055667788), (.fsd 6 7 0, 0x1122334455667788),
      (.c_fsd 0 1 1, 0x1122334455667788), (.c_fsdsp 9 1, 0x1122334455667788)] : List (Instr × Word)),
      (out (exec p.1 (fpMem .default))).map (fun t => memRead t.mem 0x80001008 8) = some p.2) ∧
    (∀ p ∈ ([(.c_fsw 0 1 2, 0x4000000055667788), (.c_fswsp 9 2, 0x4000000055667788)] : List (Instr × Word)),
      (out (exec p.1 (fpMem .rv32))).map (fun t => memRead t.mem 0x80001008 8) = some p.2) := by decide +kernel

/-- A misaligned access that its region does not perform faults before any byte, with its own address, even where later
bytes are memory (20_memory.md R111, R112); so does an access of a pop or a push, after the earlier ones (48_zc.md R691). -/
theorem test_refused_accesses :
    (∀ p ∈ ([(.lw 5 6 0, 5), (.sw 7 6 0, 7)] : List (Instr × Word)),
      (out (exec p.1 (at' { Config.default with misaligned := .support } 0x7FFFFFFE 0x7FFFFFFE))).map
        (fun t => (t.csr.mcause, t.csr.mtval)) = some (p.2, 0x7FFFFFFE)) ∧
    (out (exec (.cm_pop 4 0) ((State.resetWith .rv64Zc).wx 2 0x7FFFFFF0))).map
      (fun t => (t.csr.mcause, t.csr.mtval, t.rx 2)) = some (5, 0x7FFFFFF8, 0x7FFFFFF0) ∧
    (out (exec (.cm_push 5 0) (((State.resetWith .rv64Zc).wx 2 0x80000008).wx 8 9))).map
      (fun t => (t.csr.mcause, t.csr.mtval, t.rx 2, memRead t.mem 0x80000000 8)) = some (7, 0x7FFFFFF8, 0x80000008, 9) := by
  decide +kernel

/-- An `sc` to a region without R raises the store access fault (43_a.md R351, 92_eei_decisions.md D46). -/
theorem test_sc_needs_read :
    let c := { Config.default with memMap := [Config.mainRegion, { Config.mainRegion with base := 0x90000000, r := false }] }
    (out (exec (.sc_w false false 5 6 7) (at' c 0x90000000 1))).map (fun t => (t.csr.mcause, t.csr.mtval)) =
      some (7, 0x90000000) ∧
    (out (exec (.sw 6 7 0) (at' c 0x90000000 1))).map (fun t => memRead t.mem 0x90000000 4) = some 1 := by decide +kernel

/-! ### The step -/

/-- A word placed where the next instruction is fetched is the instruction the next step runs (log 22). -/
theorem test_step :
    (out (step (State.reset.withFetchWord 32 0x00508113))).map (fun t => (t.rx 2, t.pc, t.csr.minstret)) = some (5, 0x80000004, 1) ∧
    (out (step (State.reset.withFetchWord 16 0x4515))).map (fun t => (t.rx 10, t.pc)) = some (5, 0x80000002) ∧
    (out (step (State.reset.withFetchWord 32 0xFFFFFFFF))).map (fun t => (t.csr.mcause, t.csr.mtval)) = some (2, 0xFFFF) ∧
    decodeTableWord 32 0x00508113 = some (.addi 2 1 5) := by decide +kernel

/-- The second parcel is read after any first one with bits [1:0] = 11, and its fault comes before the illegal instruction
that an encoding longer than 32 bits is (20_memory.md R115, 60_exceptions.md R735). -/
theorem test_fetch_of_a_long_encoding :
    let s := State.reset
    (out (step (s.withFetchWord 16 0x001F))).map (fun t => (t.csr.mcause, t.csr.mtval)) = some (2, 0x001F) ∧
    (out (step { s with pc := 0x87FFFFFE, mem := memWrite s.mem 0x87FFFFFE 2 0x001F })).map
      (fun t => (t.csr.mcause, t.csr.mtval, t.csr.mepc)) = some (1, 0x88000000, 0x87FFFFFE) := by decide +kernel

/-- A takeable machine timer interrupt comes first, at the vectored address (60_exceptions.md R733, R743). -/
theorem test_interrupt :
    let s := State.reset
    let t := { s with csr := { s.csr with mie := 0x80, mtvec := 0x80000401, mstatus := { s.csr.mstatus with mie := true } } }
    (out (step t)).map (fun u => (u.pc, u.csr.mcause, u.csr.mepc)) = some (0x8000041C, 0x8000000000000007, 0x80000000) := by
  decide +kernel

/-- A waiting hart stays where it is while nothing is pending and enabled, unless it wakes for no reason (R765). -/
theorem test_waiting :
    let s := { State.reset with waiting := true, clint := { State.reset.clint with mtimecmp := [1] } }
    s.pending = 0 ∧ s.wakes = Config.spuriousWake 0 := by
  refine ⟨by decide +kernel, ?_⟩
  show (_ != 0 || Config.spuriousWake 0) = _
  rw [show ({ State.reset with waiting := true, clint := { State.reset.clint with mtimecmp := [1] } } : State).pending = 0 from by decide +kernel]
  rfl
/-! ### Witnesses: states and operands that meet the hypotheses of the statements, clause by clause -/

theorem witness_WordInstructionsCompute : State.reset.cfg.xlen = .rv64 := rfl

theorem witness_MultiplicationsAndDivisionsCompute : State.reset.cfg.xlen = .rv64 := rfl

theorem witness_CompressedInstructionsCompute : State.reset.cfg.xlen = .rv64 := rfl

theorem witness_AddressGenerationAndConditionalZerosCompute :
    State.reset.cfg.xlen = .rv64 ∧ (at' .default 0 (2 ^ 64 - 1)).cfg.norm ((at' .default 0 (2 ^ 64 - 1)).rx 7) = 2 ^ 64 - 1 := by
  decide +kernel

theorem witness_RotationsAndByteOperationsCompute :
    (at' .rv32 0 0).cfg.xlen = .rv32 ∧ (at' .default 0 0).cfg.xlen = .rv64 := by decide +kernel

theorem witness_CarrylessAndSingleBitOperationsCompute :
    (31#6).toNat < (at' .rv32 0 0).xlen ∧ (63#6).toNat < (at' .default 0 0).xlen := by decide +kernel

/-- A state whose compressed extension is off, so that targets must be multiples of 4. -/
def noC : State := at' { Config.default with extC := false, extZcb := false } 5 5

theorem witness_JumpsAndBranchesGoWhereTheyMust :
    noC.fetchable (noC.cfg.word (noC.pc.toNat + (0x80000#20).toInt * 2)) ∧
    noC.fetchable (noC.addr 6 (0x7FF#12).toInt &&& ~~~1#64) ∧
    noC.fetchable (noC.cfg.word (noC.pc.toNat + (4#11).toInt * 2)) ∧ noC.fetchable (noC.addr 0 0 &&& ~~~1#64) ∧
    noC.fetchable (noC.cfg.word (noC.pc.toNat + (0x800#12).toInt * 2)) ∧
    noC.fetchable (noC.cfg.word (noC.pc.toNat + (0x80#8).toInt * 2)) ∧
    noC.rx 6 = noC.rx 7 ∧ noC.rx 6 ≠ noC.rx 0 ∧ noC.xs 0 < noC.xs 6 ∧ noC.xs 6 ≤ noC.xs 7 ∧ noC.xu 0 < noC.xu 6 ∧
    noC.xu 6 ≤ noC.xu 7 ∧ noC.rx (CReg.reg 0) = 0 ∧ (noC.wx 8 1).rx (CReg.reg 0) ≠ 0 := by
  unfold State.fetchable; decide +kernel

theorem witness_MisalignedTargetsTrap :
    ¬ noC.fetchable (noC.cfg.word (noC.pc.toNat + (0x7FFFF#20).toInt * 2)) ∧
    ¬ noC.fetchable (noC.addr 6 (1#12).toInt &&& ~~~1#64) ∧
    ¬ noC.fetchable (noC.cfg.word (noC.pc.toNat + (0x801#12).toInt * 2)) ∧
    noC.rx 6 = noC.rx 7 ∧ noC.rx 6 ≠ noC.rx 0 ∧ noC.xs 0 < noC.xs 6 ∧ noC.xs 6 ≤ noC.xs 7 ∧ noC.xu 0 < noC.xu 6 ∧
    noC.xu 6 ≤ noC.xu 7 := by
  unfold State.fetchable; decide +kernel

theorem witness_ZcbAndDoubleMovesCompute : State.reset.cfg.xlen = .rv64 ∧ (0#3) ≠ 7#3 := by decide +kernel

theorem witness_StackListsAndRegisterFieldsAreLaidOut :
    4 ≤ (4#4).toNat ∧ 4 ≤ (14#4).toNat ∧ 4 ≤ (15#4).toNat ∧ (14#4) ≠ 15 := by decide

/-- The table of the jumps. -/
def tableState : State :=
  { State.resetWith .rv64Zc with csr := { (State.resetWith .rv64Zc).csr with jvt := 0x80002000 } }

theorem witness_TableJumpsGoToTheEntry :
    tableState.alignedAddr .table (tableState.cfg.word ((tableState.csr.jvt &&& ~~~63#64).toNat + (31#5).toNat * 8)) 8 =
      .ok 0x800020F8 ∧ tableState.inMain 0x800020F8 8 ∧
    tableState.alignedAddr .table (tableState.cfg.word ((tableState.csr.jvt &&& ~~~63#64).toNat + (255#8).toNat * 8)) 8 =
      .ok 0x800027F8 ∧ tableState.inMain 0x800027F8 8 := by
  unfold State.inMain; decide +kernel

theorem witness_MemoryReadsWhatWasWritten :
    8 ≤ 8 ∧ Memory.wf [(3, 1), (4, 2)] ∧ ∀ a, memGet [(3, 1), (4, 2)] a = memGet [(3, 1), (4, 2)] a :=
  ⟨le_rfl, by unfold Memory.wf; decide, fun _ => rfl⟩

/-- The last eight bytes of main memory, the unit on. -/
def edge : State := (((State.resetWith .default).wx 6 0x87FFFFF8).wx 7 0x87FFFFFF).wf 0 0

theorem witness_LoadsReadMainMemory :
    edge.loadOf (.ld 5 6 0) = some ⟨4, 5, 0x87FFFFF8, 8, true⟩ ∧ edge.alignedAddr .load 0x87FFFFF8 8 = .ok 0x87FFFFF8 ∧
    edge.inMain 0x87FFFFF8 8 ∧ edge.loadOf (.lbu 5 7 0) = some ⟨4, 5, 0x87FFFFFF, 1, false⟩ ∧
    edge.alignedAddr .load 0x87FFFFFF 1 = .ok 0x87FFFFFF ∧ edge.inMain 0x87FFFFFF 1 ∧
    edge.fpLoadOf (.fld 5 6 0) = some (.d, ⟨4, 5, 0x87FFFFF8, 8, false⟩) ∧ edge.csr.mstatus.fs ≠ 0 := by
  unfold State.inMain; decide +kernel

theorem witness_StoresWriteMainMemory :
    edge.storeOf (.sd 6 7 0) = some ⟨4, 7, 0x87FFFFF8, 8, false⟩ ∧ edge.fpStoreOf (.fsd 6 7 0) = some ⟨4, 7, 0x87FFFFF8, 8, false⟩ ∧
    edge.csr.mstatus.fs ≠ 0 ∧ edge.alignedAddr .store 0x87FFFFF8 8 = .ok 0x87FFFFF8 ∧ edge.inMain 0x87FFFFF8 8 := by
  unfold State.inMain; decide +kernel

/-- `x6` holds the address of the CLINT's first timer compare register, the unit on. -/
def clintState : State := (at' .default 0x02004000 0).wf 0 0

theorem witness_DeviceAccessesComplete :
    clintState.loadOf (.ld 5 6 0) = some ⟨4, 5, 0x02004000, 8, true⟩ ∧
    clintState.fpLoadOf (.fld 5 6 0) = some (.d, ⟨4, 5, 0x02004000, 8, false⟩) ∧
    clintState.storeOf (.sd 6 7 0) = some ⟨4, 7, 0x02004000, 8, false⟩ ∧
    clintState.fpStoreOf (.fsd 6 7 0) = some ⟨4, 7, 0x02004000, 8, false⟩ ∧ clintState.csr.mstatus.fs ≠ 0 ∧
    clintState.alignedAddr .load 0x02004000 8 = .ok 0x02004000 ∧
    clintState.alignedAddr .store 0x02004000 8 = .ok 0x02004000 ∧ ¬ clintState.inMain 0x02004000 8 ∧
    inClint clintState.cfg 0x0200FFFF = true ∧ inClint clintState.cfg 0x02010000 = false ∧
    Config.default.harts ≤ Config.maxHarts ∧ 0 < Config.default.harts ∧ Config.default.xlen = .rv64 ∧
    Config.rv32.xlen = .rv32 := by
  unfold State.inMain; decide +kernel

/-- A device that takes atomic instructions; `x6` holds its last doubleword. -/
def ioState : State :=
  let io : Region :=
    { base := 0x10000000, size := 0x1000, kind := .io, r := true, w := true, x := false, atomics := .amoLrsc, misalignedOk := false }
  at' { Config.default with memMap := [Config.mainRegion, io] } 0x10000FF8 5

theorem witness_atomics_at_a_device :
    (amoOf (.amoadd_d false false 5 6 7)).isSome = true ∧ lrOf (.lr_d false false 5 6) = some (5, 6, 8) ∧
    scOf (.sc_d false false 5 6 7) = some (5, 6, 7, 8) ∧
    (∀ k ∈ [Access.load, .store, .amo, .lr, .sc], ioState.alignedAddr k (ioState.rx 6) 8 = .ok 0x10000FF8) ∧
    ¬ ioState.inMain 0x10000FF8 8 ∧ inClint ioState.cfg 0x10000FF8 = false ∧ ioState.resv = none ∧
    (let s := { ioState with resv := some (0x10000FF8, 8) }
     s.resv = some (0x10000FF8, 8) ∧ ((s.rx 6).toNat + 8 - 1) / s.cfg.granule = (0x10000FF8#64).toNat / s.cfg.granule) := by
  unfold State.inMain; decide +kernel

/-- Two harts, the second of them at the end of the lists. -/
theorem witness_clint_of_two_harts :
    let c : Clint := { State.reset.clint with msip := [false, true], mtimecmp := [0, 1] }
    1 < c.mtimecmp.length ∧ 1 < c.msip.length ∧ 0 ≠ 1 ∧ (Part.hi) ≠ .both := by decide

/-- Offsets no register has, at the ends of the gaps. -/
theorem witness_vacant_clint_offsets :
    ∀ p ∈ [(0, 1), (2, 4), (4, 4), (0x3FFC, 4), (0x4008, 4), (0xBFF4, 4), (0xC000, 4)], clintReg .default p.1 p.2 = none := by
  decide +kernel

theorem witness_AccessChecksComeInOrder :
    (0x80000001#64).toNat % 2 ≠ 0 ∧ edge.translate .load 0 = .ok 0 ∧ regionOk edge.cfg .load 0 8 = false ∧
    edge.translate .load 0x87FFFFF8 = .ok 0x87FFFFF8 ∧ regionOk edge.cfg .load 0x87FFFFF8 8 = true ∧
    edge.untranslated .load := by
  unfold State.untranslated; decide +kernel

/-- S-mode under Sv39 with one gigapage leaf that is not accessed. -/
def pagedState (leaf : Word) : State :=
  let s := mem8 .default 0x1234 0
  { s with
    priv := .s, csr := { s.csr with satp := 0x8000000000080002#64 }, mem := memWrite s.mem 0x80002010 8 leaf }

/-- Misaligned accesses are split. -/
def splitState (a : Word) : State := (at' { Config.default with misaligned := .support } a 7).wf 0 0

/-- `sp` as given, with the instructions of Zcmp. -/
def stackState (sp : Word) : State := (State.resetWith .rv64Zc).wx 2 sp

/-- Where no region holds the bytes, none allows the access. -/
theorem hole {s : State} {k : Access} {pa n : Nat} (h : findRegion s.cfg pa n = none) : s.noRegion k pa n := by
  intro r hr a b _
  have := List.find?_eq_none.1 h r hr
  simp [a, b] at this

theorem witness_failed_translation :
    (pagedState 0x2000008F#64).translate .load 0x80001000 = .error .loadPageFault := by decide +kernel

theorem witness_FailedAccessesTrap :
    ((at' .default 0 0).accessOf (.lw 5 6 0) = some (.load, 0, 4) ∧ ¬ (at' .default 0 0).fpAccess (.lw 5 6 0) ∧
     (0#64).toNat % 4 = 0 ∧ (at' .default 0 0).translate .load 0 = .ok 0 ∧
     clintState.accessOf (.sb 6 7 0) = some (.store, 0x02004000, 1) ∧
     clintState.translate .store 0x02004000 = .ok 0x02004000 ∧ regionOk clintState.cfg .store 0x02004000 1 = false ∧
     edge.accessOf (.fsw 7 6 0) = some (.store, 0x87FFFFFF, 4) ∧ edge.fpAccess (.fsw 7 6 0) ∧ edge.csr.mstatus.fs ≠ 0 ∧
     (0x87FFFFFF#64).toNat % 4 ≠ 0 ∧ edge.cfg.misaligned = .trap ∧
     (splitState 0x80001001).accessOf (.lr_w false false 5 6) = some (.lr, 0x80001001, 4) ∧
     (pagedState 0x2000008F#64).accessOf (.amoadd_d false false 5 6 7) = some (.amo, 0x80001000, 8) ∧
     (pagedState 0x2000008F#64).translate .amo 0x80001000 = .error .storeAmoPageFault) ∧
    (at' .default 0 0).noRegion .load 0 4 :=
  ⟨by unfold State.fpAccess; decide +kernel, hole (by decide +kernel)⟩

/-- The first access of a push and of a pop in a hole, misaligned, and on a page that is not permitted. -/
theorem witness_failed_stack_accesses :
    ((stackState 8).slot (stackState 8).pushTop 0 = 0 ∧ (stackState 8).translate .push 0 = .ok 0 ∧
     (stackState 8).slot ((stackState 8).popTop 4 0) 0 = 16 ∧ (stackState 8).translate .pop 16 = .ok 16 ∧
     (stackState 0x80001001).slot (stackState 0x80001001).pushTop 0 = 0x80000FF9 ∧ (0x80000FF9#64).toNat % 8 ≠ 0 ∧
     (stackState 0x80001001).cfg.misaligned = .trap ∧
     (pagedState 0x2000008F#64).translate .push 0x80001000 = .error .storeAmoPageFault ∧
     (pagedState 0x2000008F#64).translate .pop 0x80001000 = .error .loadPageFault) ∧
    (stackState 8).noRegion .push 0 8 ∧ (stackState 8).noRegion .pop 16 8 :=
  ⟨by decide +kernel, hole (by decide +kernel), hole (by decide +kernel)⟩

theorem witness_failed_table_reads :
    (tableState.cfg.xlen.bytes = 8 ∧ (State.resetWith .rv64Zc).cfg.word ((31#5).toNat * 8) = 248 ∧
     (State.resetWith .rv64Zc).csr.jvt = 0 ∧ (State.resetWith .rv64Zc).translate .table 248 = .ok 248 ∧
     (pagedState 0x2000008F#64).translate .table 0x80001000 = .error .instructionPageFault) ∧
    (State.resetWith .rv64Zc).noRegion .table 248 8 :=
  ⟨by decide +kernel, hole (by decide +kernel)⟩

theorem witness_failed_fetches :
    ((0#64).toNat % 2 = 0 ∧ ({ State.reset with pc := 0 }).alignedAddr .fetch 0 2 = .error .instructionAccessFault ∧
     ({ State.reset with pc := 0 }).translate .fetch 0 = .ok 0 ∧
     (pagedState 0x2000008F#64).alignedAddr .fetch 0x80001000 2 = .error .instructionPageFault) ∧
    ({ State.reset with pc := 0 }).noRegion .fetch 0 2 :=
  ⟨by decide +kernel, hole (by decide +kernel)⟩

theorem witness_SplitAccessesReachEveryByte :
    (splitState 0x80001001).cfg.misaligned = .support ∧ (0x80001001#64).toNat % 4 ≠ 0 ∧
    (splitState 0x80001001).loadOf (.lw 5 6 0) = some ⟨4, 5, 0x80001001, 4, true⟩ ∧
    (splitState 0x80001001).fpLoadOf (.flw 5 6 0) = some (.s, ⟨4, 5, 0x80001001, 4, false⟩) ∧
    (splitState 0x80001001).storeOf (.sw 6 7 0) = some ⟨4, 7, 0x80001001, 4, false⟩ ∧
    (splitState 0x80001001).fpStoreOf (.fsw 6 7 0) = some ⟨4, 7, 0x80001001, 4, false⟩ ∧
    (splitState 0x80001001).csr.mstatus.fs ≠ 0 ∧ (splitState 0x80001001).untranslated .store ∧
    (splitState 0x80001001).bytesAt .load 0x80001001 4 0x80001001 ∧
    (splitState 0x80001001).bytesAt .store 0x80001001 4 0x80001001 := by
  unfold State.untranslated State.bytesAt; decide +kernel

/-- A misaligned access in a hole, and one whose last two bytes lie past the end of memory. -/
theorem witness_failed_split_accesses :
    (splitState 1).accessOf (.lw 5 6 0) = some (.load, 1, 4) ∧ (splitState 1).accessOf (.sw 6 7 0) = some (.store, 1, 4) ∧
    (splitState 1).translate .load 1 = .ok 1 ∧ (splitState 1).translate .store 1 = .ok 1 ∧ (splitState 1).noSplit 1 ∧
    (let s := splitState 0x87FFFFFE
     s.accessOf (.lw 5 6 0) = some (.load, 0x87FFFFFE, 4) ∧ s.accessOf (.sw 6 7 0) = some (.store, 0x87FFFFFE, 4) ∧
       s.translate .load 0x87FFFFFE = .ok 0x87FFFFFE ∧ s.translate .store 0x87FFFFFE = .ok 0x87FFFFFE ∧
       splitOk s.cfg 0x87FFFFFE = true ∧ s.untranslated .store ∧
       s.splitAddr .load (s.byteAddr 0x87FFFFFE 2) = .error .loadAccessFault ∧
       s.splitAddr .store (s.byteAddr 0x87FFFFFE 2) = .error .storeAmoAccessFault) := by
  unfold State.untranslated State.noSplit; decide +kernel

/-- A translated misaligned store, complete and past the end of memory. -/
theorem witness_translated_split_stores :
    let s := { pagedState 0x200000CF#64 with cfg := { Config.default with misaligned := .support } }
    ¬ s.untranslated .store ∧ s.cfg.misaligned = .support ∧ s.storeOf (.sd 6 7 1) = some ⟨4, 7, 0x80001001, 8, false⟩ ∧
    (0x80001001#64).toNat % 8 ≠ 0 ∧ s.translate .store 0x80001001 = .ok 0x80001001 ∧ splitOk s.cfg 0x80001001 = true ∧
    (∀ j < 8, s.splitAddr .store (s.byteAddr 0x80001001 j) = .ok (0x80001001 + j)) ∧
    s.translate .store 0x87FFFFFE = .ok 0x87FFFFFE ∧ splitOk s.cfg 0x87FFFFFE = true ∧
    s.splitAddr .store (s.byteAddr 0x87FFFFFE 2) = .error .storeAmoAccessFault := by
  unfold State.untranslated; decide +kernel

/-- The third and fourth bytes of a load lie in another frame than the first two, which is not the next one: two gigapages
with one frame, under a region of a gibibyte. -/
def crossingState : State :=
  let s := ((pagedState 0x200000CF#64).wx 6 0x3FFFFFFE).wf 0 0
  { s with
    cfg := { Config.default with misaligned := .support, memMap := [{ Config.mainRegion with size := 0x40000000 }] }
    mem := memWrite (memWrite s.mem 0x80002000 8 0x200000CF) 0x80002008 8 0x200000CF }

/-- RV32 with memory at both ends of the address space: a load of four bytes at `0xFFFFFFFE` wraps round. -/
def wrapState : State :=
  let c := { Config.rv32 with
    misaligned := .support
    memMap := [Config.mainRegion, { Config.mainRegion with base := 0 }, { Config.mainRegion with base := 0xF8000000 }] }
  at' c 0xFFFFFFFE 0

/-- The two ends of a frame of memory, for the bytes of an access that `near` of them come before its end. -/
def ends (near hi lo j : Nat) : Nat := if j < near then hi + j else lo + (j - near)

/-- Loads whose bytes are not together: in frames that are not neighbours, and round the top of the address space. -/
theorem witness_gathered_loads :
    (crossingState.cfg.misaligned = .support ∧ (0x3FFFFFFE#64).toNat % 4 ≠ 0 ∧
      crossingState.loadOf (.lw 5 6 0) = some ⟨4, 5, 0x3FFFFFFE, 4, true⟩ ∧
      crossingState.fpLoadOf (.flw 5 6 0) = some (.s, ⟨4, 5, 0x3FFFFFFE, 4, false⟩) ∧ crossingState.csr.mstatus.fs ≠ 0 ∧
      ∀ j < 4, crossingState.splitAddr .load (crossingState.byteAddr 0x3FFFFFFE j) = .ok (ends 2 0xBFFFFFFE 0x80000000 j)) ∧
    (wrapState.cfg.misaligned = .support ∧ wrapState.loadOf (.lw 5 6 0) = some ⟨4, 5, 0xFFFFFFFE, 4, true⟩ ∧
      ∀ j < 4, wrapState.splitAddr .load (wrapState.byteAddr 0xFFFFFFFE j) = .ok (ends 2 0xFFFFFFFE 0 j)) ∧
    (crossingState.cfg.norm 0x3FFFFFFC = 0x3FFFFFFC ∧ (0x3FFFFFFC#64).toNat % crossingState.cfg.xlen.bytes ≠ 0 ∧
      ∀ j < 8, crossingState.splitAddr .pop (crossingState.byteAddr 0x3FFFFFFC j) = .ok (ends 4 0xBFFFFFFC 0x80000000 j)) := by
  decide +kernel

/-- In RV64 paging is on where the mode of `satp` is 8. -/
theorem pagingOn_rv64 {s : State} (h : s.cfg.xlen = .rv64) : s.pagingOn ↔ s.csr.satp.toNat / 2 ^ 60 = 8 := by
  unfold State.pagingOn; rw [h]

/-- `pagedState` with its root table at page 0, which no region holds. -/
def rootless : State := { pagedState 0 with csr := { (pagedState 0).csr with satp := 0x8000000000000000 } }

theorem witness_paging :
    ¬ edge.pagingOn ∧ (pagedState 0x200000CF#64).pagingOn ∧ (pagedState 0x2000008F#64).pagingOn ∧ rootless.pagingOn := by
  refine ⟨(pagingOn_rv64 (by decide +kernel)).not.2 ?_, (pagingOn_rv64 (by decide +kernel)).2 ?_,
    (pagingOn_rv64 (by decide +kernel)).2 ?_, (pagingOn_rv64 (by decide +kernel)).2 ?_⟩ <;> decide +kernel

theorem witness_TranslatedAccessesNeedAPermittedLeaf :
    (({ pagedState 0 with priv := .m }).privilegeOf .load = .m ∧ (pagedState 0x200000CF#64).privilegeOf .load ≠ .m) ∧
    (¬ (pagedState 0x200000CF#64).canonical 0x4000000000 ∧ (pagedState 0x200000CF#64).canonical 0x80001000 ∧
      (pagedState 0x200000CF#64).canonical (2 ^ 64 - 1)) ∧
    ((pagedState 0x200000CF#64).entryReadable 0x80001000 2 0x80002 ∧
      (pagedState 0x200000CF#64).entry .load 0x80001000 2 0x80002 = 0x200000CF ∧ LeafEntry 0x200000CF ∧
      (pagedState 0x200000CF#64).LeafPermits .load 2 0x200000CF ∧
      (pagedState 0x200000CF#64).leafAddr 0x80001000 2 0x200000CF = 0x80001000) ∧
    ((pagedState 0x2000008F#64).entry .load 0x80001000 2 0x80002 = 0x2000008F ∧ LeafEntry 0x2000008F ∧
      ¬ (pagedState 0x2000008F#64).LeafPermits .load 2 0x2000008F) ∧
    (¬ rootless.entryReadable 0x80001000 2 0 ∧ ¬ LeafEntry 0x200000C1 ∧ (0x200000C1#64).getLsbD 7 = true) ∧
    ¬ ValidEntry .rv64 0 ∧ ¬ ValidEntry .rv64 5 := by
  refine ⟨by decide +kernel, ?_, ?_, ?_, ?_, fun h => absurd h.1 (by decide), fun h => absurd (h.2.1 (by decide)) (by decide)⟩
  · unfold State.canonical; decide +kernel
  · unfold State.entryReadable LeafEntry State.LeafPermits; decide +kernel
  · unfold LeafEntry State.LeafPermits; decide +kernel
  · unfold State.entryReadable LeafEntry; decide +kernel

theorem valid_pointer : ValidEntry .rv64 0x20000C01 ∧ ValidEntry .rv64 0x200000CF := by
  refine ⟨⟨by decide, by decide, fun _ j h => ?_⟩, ⟨by decide, by decide, fun _ j h => ?_⟩⟩
  all_goals
    by_cases h' : j < 64
    · revert h h'; revert j; decide
    · exact BitVec.getLsbD_of_ge _ _ (by omega)

/-- The walk begins at the root, and goes on where a pointer says. -/
theorem witness_walks :
    (pagedState 0x200000CF#64).Reaches .load 0x80001000 2 0x80002 ∧
    (pagedState 0x20000C01#64).Reaches .load 0x80001000 1 0x80003 := by
  have e : (pagedState 0x20000C01#64).entry .load 0x80001000 2 0x80002 = 0x20000C01 := by decide +kernel
  refine ⟨.root, ?_⟩
  have h := State.Reaches.next (s := pagedState 0x20000C01#64) (k := .load) (va := 0x80001000) (level := 1) (table := 0x80002)
    .root (by unfold State.entryReadable; decide +kernel) (by rw [e]; exact valid_pointer.1)
    (by rw [e]; unfold LeafEntry; decide) (by rw [e]; decide)
  rw [e] at h
  exact h

theorem witness_CsrInstructionsComplete :
    State.reset.csrAccess 0x340 true = some .mscratch ∧ State.reset.csrAccess 0xF14 false = some .mhartid ∧ (31#5) ≠ 0 := by
  decide +kernel

theorem witness_CsrAccessIsChecked :
    State.reset.csrAccess 0xF14 true = none ∧ State.reset.csrAccess 0x001 (0#5 != 0) = none ∧
    State.reset.csrAccess 0xF14 (1#5 != 0) = none := by decide +kernel

theorem witness_csr_table :
    Config.rv32.extZicsr = true ∧ (0xC1F, .hpmcounter 31) ∈ csrTable .rv32 ∧ (0xC83, .hpmcounterh 3) ∈ csrTable .rv32 ∧
    (0x31A, .menvcfgh) ∈ csrTable .rv32 ∧ (0x31A, .menvcfgh) ∉ csrTable .default ∧
    State.reset.csrAccess 0x340 true = some .mscratch := by decide +kernel

/-- Every interrupt is enabled; M external and S external are pending, the second is delegated. -/
def pendingState (p : Priv) (mie : Word) : State :=
  { State.reset with
    priv := p
    csr := { State.reset.csr with mie := mie, mideleg := 0x200, seip := true }
    lines := { Lines.low with meip := true } }

theorem witness_CsrsKeepLegalValues :
    Config.default.norm (2 ^ 64 - 1) = 2 ^ 64 - 1 ∧ (2 ^ 64 - 1 : Word).toNat % 4 ≠ 1 ∧ Config.default.extS = true ∧
    Config.default.extU = true ∧ Config.default.extF = true ∧ (0x1000 : Word).extractLsb' 11 2 = 2#2 ∧
    (0x1800 : Word).extractLsb' 11 2 ≠ 2#2 ∧ Config.rv32.xlen = .rv32 ∧ Config.rv32.norm (2 ^ 32 - 1) = 2 ^ 32 - 1 ∧
    Config.default.paging = true ∧ (0x8000000000000000#64).toNat / 2 ^ 60 = 8 ∧ (0x9000000000000000#64).toNat / 2 ^ 60 = 9 ∧
    (0x80000000#64).toNat / 2 ^ 31 = 1 ∧ ((pendingState .s 0xAAA).csrGet .mideleg).getLsbD 9 = true ∧
    ((pendingState .s 0xAAA).csrGet .mideleg).getLsbD 1 = false ∧
    (({ State.reset with csr := { State.reset.csr with mideleg := 0x222 } }).csrGet .mideleg).getLsbD 1 = true := by
  decide +kernel

/-- The state in another mode. -/
def inMode (p : Priv) : State := { State.reset with priv := p }

theorem witness_CallsAndBreakpointsTrap :
    (inMode .u).priv = .u ∧ (inMode .s).priv = .s ∧ (inMode .m).priv = .m ∧
    Exc.breakpoint ∈ [Exc.ecallFromU, .ecallFromS, .ecallFromM, .breakpoint] := by decide

theorem witness_TrapsEnterTheirMode : 15 < 16 ∧ (inMode .s).priv ≠ .m := by decide

theorem witness_InterruptsAreTakenByPriority :
    (pendingState .s 0xAAA).takeableM 11 = true ∧ interruptOrder = [] ++ 11 :: [3, 7, 9, 1, 5] ∧
    (∀ j ∈ interruptOrder, (pendingState .u 0x200).takeableM j = false) ∧ (pendingState .u 0x200).takeableS 9 = true ∧
    (∀ j ∈ [11, 3, 7], (pendingState .u 0x200).takeableS j = false) ∧
    ∀ j ∈ interruptOrder, (pendingState .m 0xAAA).takeableM j = false ∧ (pendingState .m 0xAAA).takeableS j = false := by
  decide +kernel

/-- The status bits that trap the supervisor. -/
def strictState (p : Priv) : State :=
  { State.reset with
    priv := p, csr := { State.reset.csr with mstatus := { State.reset.csr.mstatus with tvm := true, tw := true, tsr := true } } }

theorem witness_ReturnsRestoreTheirMode :
    (inMode .m).priv = .m ∧ (inMode .s).cfg.extS = true ∧ (inMode .s).csr.mstatus.tsr = false ∧ (inMode .u).priv ≠ .m ∧
    (strictState .s).csr.mstatus.tsr = true ∧ bare.extS = false := by decide

theorem witness_FencesAndWaitsComplete :
    (inMode .s).csr.mstatus.tvm = false ∧ (inMode .s).csr.mstatus.tw = false ∧ (strictState .s).csr.mstatus.tw = true ∧
    (strictState .s).csr.mstatus.tvm = true ∧ (inMode .u).cfg.wfiU = false := by decide

theorem witness_ModeChangesOnlyByTrapsAndReturns :
    (out (exec .mret (inMode .m))).map (fun t => t.priv) = some .u ∧
    (out (exec .ecall (inMode .u))).map (fun t => t.priv) = some .m := by decide +kernel

theorem witness_UserModeCannotChangePrivilegedState :
    (inMode .u).priv = .u ∧ (out (exec (.addi 1 0 1) (inMode .u))).map (fun t => t.priv) = some .u ∧
    (out (exec .ecall (inMode .u))).map (fun t => t.priv) = some .m ∧
    (let s := { inMode .u with csr := { (inMode .u).csr with medeleg := 0x100 } }
     s.priv = .u ∧ (out (exec .ecall s)).map (fun t => t.priv) = some .s) := by decide +kernel

/-- `x6` holds an address that is reserved. -/
def reservedState : State := { mem8 .default 5 9 with resv := some (0x80001000, 8) }

theorem witness_LoadReservedAndStoreConditionalComplete :
    lrOf (.lr_d false false 5 6) = some (5, 6, 8) ∧ reservedState.alignedAddr .lr (reservedState.rx 6) 8 = .ok 0x80001000 ∧
    scOf (.sc_d false false 5 6 7) = some (5, 6, 7, 8) ∧
    reservedState.alignedAddr .sc (reservedState.rx 6) 8 = .ok 0x80001000 ∧ reservedState.inMain 0x80001000 8 ∧
    reservedState.reserved (reservedState.rx 6) 8 = true ∧ (mem8 .default 5 9).reserved 0x80001000 8 = false := by
  unfold State.inMain; decide +kernel

theorem witness_AtomicOperationsComplete :
    (amoOf (.amoadd_d false false 5 6 7)).isSome = true ∧
    reservedState.alignedAddr .amo (reservedState.rx 6) 8 = .ok 0x80001000 ∧ reservedState.inMain 0x80001000 8 := by
  unfold State.inMain; decide +kernel

theorem witness_PushStoresTheList :
    (∀ r ∈ [4#4, 15#4], 4 ≤ r.toNat ∧ listCount r * 8 ≤ 0x80000FF8 ∧
      ∀ j < listCount r,
        (stackState 0x80001000).alignedAddr .push
            ((stackState 0x80001000).slot (((stackState 0x80001000).xu State.sp : Int) - 8) j) 8 = .ok (0x80000FF8 - j * 8) ∧
        (stackState 0x80001000).inMain (0x80000FF8 - j * 8) 8) ∧ (stackState 0x80001000).untranslated .push := by
  unfold State.inMain State.untranslated; decide +kernel

theorem witness_PopsLoadTheList :
    ∀ r ∈ [4#4, 15#4], 4 ≤ r.toNat ∧
      ∀ j < listCount r,
        (stackState 0x80000F00).alignedAddr .pop
            ((stackState 0x80000F00).slot
              (((stackState 0x80000F00).xu State.sp : Int) + (stackAdj (stackState 0x80000F00).cfg r 3).toNat - 8) j) 8 =
          .ok (0x80000EF8 + (stackAdj (stackState 0x80000F00).cfg r 3).toNat - j * 8) ∧
        (stackState 0x80000F00).inMain (0x80000EF8 + (stackAdj (stackState 0x80000F00).cfg r 3).toNat - j * 8) 8 := by
  unfold State.inMain; decide +kernel

/-- One store of a push and one load of a pop: complete, misaligned, on a forbidden page, in a hole, in a device, split. -/
theorem witness_stack_accesses :
    (let s := stackState 0x80001000
     ∀ k ∈ [Access.push, .pop], s.alignedAddr k 0x87FFFFF8 8 = .ok 0x87FFFFF8 ∧ s.inMain 0x87FFFFF8 8 ∧
       (0x80000FF9#64).toNat % 8 ≠ 0 ∧ s.cfg.misaligned = .trap ∧ s.translate k 0x02004000 = .ok 0x02004000 ∧
       ∀ r ∈ s.cfg.regions, r.base ≤ 0x02004000 → 0x02004000 + 8 ≤ r.base + r.size → r.kind = .io) ∧
    (let s := { State.resetWith { Config.rv64Zc with misaligned := .support } with pc := 0x80000000 }
     s.cfg.misaligned = .support ∧ s.cfg.norm 0x80000FF9 = 0x80000FF9 ∧ s.untranslated .push ∧
       s.bytesAt .push 0x80000FF9 8 0x80000FF9 ∧ s.bytesAt .pop 0x80000FF9 8 0x80000FF9 ∧ s.translate .push 1 = .ok 1 ∧
       s.translate .pop 1 = .ok 1 ∧ s.noSplit 1) := by
  unfold State.inMain State.untranslated State.bytesAt State.noSplit; decide +kernel

/-- A push and a pop whose access begins in memory and ends past it. -/
theorem witness_split_stack_accesses :
    let s := { State.resetWith { Config.rv64Zc with misaligned := .support } with pc := 0x80000000 }
    (0x87FFFFFC#64).toNat % s.cfg.xlen.bytes ≠ 0 ∧ s.cfg.misaligned = .support ∧
    (∀ k ∈ [Access.push, .pop], s.translate k 0x87FFFFFC = .ok 0x87FFFFFC) ∧ splitOk s.cfg 0x87FFFFFC = true ∧
    s.untranslated .push ∧ s.splitAddr .push (s.byteAddr 0x87FFFFFC 4) = .error .storeAmoAccessFault ∧
    s.splitAddr .pop (s.byteAddr 0x87FFFFFC 7) = .error .loadAccessFault := by
  unfold State.untranslated; decide +kernel

/-- A push whose first store completes and whose second fails, and a pop whose first two loads complete. -/
theorem witness_partial_push :
    ((stackState 0x80000008).alignedAddr .push ((stackState 0x80000008).slot (stackState 0x80000008).pushTop 0) 8 =
       .ok 0x80000000 ∧ (stackState 0x80000008).inMain 0x80000000 8 ∧
     (stackState 0x80000008).slot (stackState 0x80000008).pushTop 1 = 0x7FFFFFF8 ∧
     (stackState 0x7FFFFFF8).slot ((stackState 0x7FFFFFF8).popTop 6 0) 1 = 0x80000008 ∧
     (stackState 0x7FFFFFF8).alignedAddr .pop 0x80000008 8 = .ok 0x80000008 ∧
     (stackState 0x7FFFFFF8).inMain 0x80000008 8) ∧
    (stackState 0x80000008).noRegion .push 0x7FFFFFF8 8 :=
  ⟨by unfold State.inMain; decide +kernel, hole (by decide +kernel)⟩

theorem witness_ResetMeetsTheInvariant : Config.default.wf = true ∧ Config.rv32Zc.wf = true := by decide +kernel

theorem witness_EveryStepAnswers : State.reset.cfg.wf = true := by decide +kernel

theorem witness_EveryStepKeepsTheInvariant : State.reset.Inv ∧ (out (step State.reset)).isSome = true := by
  refine ⟨⟨by decide +kernel, ?_, by decide +kernel, by decide +kernel, by decide +kernel, by decide +kernel, by decide +kernel,
    ⟨by decide +kernel, by decide +kernel, by decide +kernel, by decide +kernel⟩,
    ⟨by decide +kernel, by decide +kernel, by decide +kernel, by decide +kernel, by decide +kernel, by decide +kernel,
      by decide +kernel, fun _ => rfl, by decide +kernel, by decide +kernel, by decide +kernel, by decide +kernel,
      by iterate 11 refine List.forall_mem_cons.2 ⟨by decide +kernel, ?_⟩
         exact List.forall_mem_nil _⟩,
    fun a n h => (by cases h), by decide +kernel⟩, by decide +kernel⟩
  exact Memory.wf_reset _

/-- An instruction at the reset vector. -/
def fetchState (w : Word) : State := { State.reset with mem := memWrite [] 0x80000000 4 w }

theorem witness_StepRunsTheDecodedInstruction :
    (fetchState 0x00508113).waiting = false ∧ (fetchState 0x00508113).sample.interrupt.isNone = true ∧
    ((fetchState 0x00508113).fetch.toOption = some (.word 0x00508113) ∧
      decode .default (.word 0x00508113) = .ok (.addi 2 1 5) ∧ (out (exec (.addi 2 1 5) (fetchState 0x00508113))).isSome = true) ∧
    ((fetchState 0).fetch.toOption = some (.half 0) ∧ (decode .default (.half 0)).toOption.isNone = true) ∧
    ({ State.reset with pc := 0 }).fetch.toOption.isNone = true := by decide +kernel

theorem witness_InterruptsComeFirstAndWaitingHartsIdle :
    (pendingState .s 0xAAA).cfg.wf = true ∧ (pendingState .s 0xAAA).waiting = false ∧
    (pendingState .s 0xAAA).sample.interrupt.isSome = true ∧ ({ State.reset with waiting := true }).waiting = true := by
  decide +kernel

theorem witness_FetchReadsTheBytesAtPc :
    State.reset.alignedAddr .fetch State.reset.pc 2 = .ok 0x80000000 ∧ State.reset.inMain 0x80000000 2 ∧
    State.reset.alignedAddr .fetch (State.reset.nextPc 2) 2 = .ok 0x80000002 ∧ State.reset.inMain 0x80000002 2 ∧
    (0x0001#16).extractLsb' 0 2 ≠ 3#2 ∧ (0x8113#16).extractLsb' 0 2 = 3#2 ∧ (0x8113#16).extractLsb' 2 3 ≠ 7#3 ∧
    (0x001F#16).extractLsb' 0 2 = 3#2 ∧ (0x001F#16).extractLsb' 2 3 = 7#3 ∧
    ({ State.reset with pc := 0x87FFFFFE }).alignedAddr .fetch 0x87FFFFFE 2 = .ok 0x87FFFFFE ∧
    ({ State.reset with pc := 0x87FFFFFE }).alignedAddr .fetch (({ State.reset with pc := 0x87FFFFFE }).nextPc 2) 2 =
      .error .instructionAccessFault := by
  unfold State.inMain; decide +kernel

/-- A device that may be executed. -/
def ioCodeState : State :=
  let io : Region :=
    { base := 0x10000000, size := 0x1000, kind := .io, r := true, w := true, x := true, atomics := .none, misalignedOk := false }
  { State.resetWith { Config.default with memMap := [Config.mainRegion, io] } with pc := 0x10000FFE }

/-- The two bytes of a parcel. -/
theorem parcel_bytes (a b : Byte) :
    ((b ++ a).setWidth 64).extractLsb' 0 8 = a ∧ ((b ++ a).setWidth 64).extractLsb' 8 8 = b := by
  constructor
  all_goals
    refine BitVec.eq_of_getLsbD_eq fun i hi => ?_
    rw [BitVec.getLsbD_extractLsb', BitVec.getLsbD_setWidth, BitVec.getLsbD_append]
    simp [hi]
    try omega

theorem witness_parcels : State.reset.Parcel State.reset.pc 0 ∧ ∃ w, ioCodeState.Parcel ioCodeState.pc w := by
  have h : ¬ ioCodeState.inMain 0x10000FFE 2 := by unfold State.inMain; decide +kernel
  refine ⟨⟨0x80000000, by decide +kernel, fun _ => by decide +kernel, fun h => absurd (by unfold State.inMain; decide +kernel) h⟩,
    Config.deviceByte { draw := 0, kind := .fetch, va := 0x10000FFE, level := none, pa := 0x10000FFF } ++
      Config.deviceByte { draw := 0, kind := .fetch, va := 0x10000FFE, level := none, pa := 0x10000FFE },
    0x10000FFE, by decide +kernel, fun c => absurd c h, fun _ => ?_⟩
  unfold State.DeviceValue
  rw [if_neg (by decide +kernel)]
  refine ⟨by simp only [BitVec.toNat_setWidth]; omega, fun j hj => ?_⟩
  obtain rfl | rfl : j = 0 ∨ j = 1 := by omega
  · exact (parcel_bytes _ _).1
  · exact (parcel_bytes _ _).2

theorem witness_EncodedInstructionsDecode :
    Instr.wf .default (.addi 31 31 0x800) = true ∧ Instr.wf .rv32 (.c_jal 0x7FF) = true ∧ Instr.wf .rv64Zc (.cm_jalt 255) = true := by
  decide +kernel

theorem witness_DecodedInstructionsEncode : decode .default (.word 0x800F8F93) = .ok (.addi 31 31 0x800) := by decide +kernel

/-- Each rounding mode, statically and by DYN. -/
theorem witness_FloatArithmeticCompletes :
    edge.csr.mstatus.fs ≠ 0 ∧ edge.roundingMode 0 = some .rne ∧ edge.roundingMode 4 = some .rmm ∧
    edge.roundingMode 7 = some .rne ∧ ({ edge with frm := 3 }).roundingMode 7 = some .rup := by decide +kernel

/-- NaNs, infinities and numbers on both sides of a range. -/
theorem witness_FloatToIntegerConversionsRoundAndSaturate :
    (Fmt.h.val 0x7E00).isNan = true ∧ Fmt.h.val 0xFC00 = .inf true ∧ (Fmt.h.num 0xBC00).isSome = true ∧
    (Fmt.s.num 0x4F800000).isSome = true ∧ (Fmt.d.num 1).isSome = true := by decide +kernel

theorem witness_ConversionsToFloatComplete :
    edge.csr.mstatus.fs ≠ 0 ∧ edge.roundingMode 1 = some .rtz ∧ edge.cfg.xlen = .rv64 := by decide +kernel

theorem witness_SignInjectionMinMaxAndMovesComplete :
    edge.csr.mstatus.fs ≠ 0 ∧ (Fmt.h.val 0x7E00).isNan = true ∧ (Fmt.h.val 0x3C00).isNan = false ∧
    Fmt.h.num 0x8000 = some 0 ∧ Fmt.h.num 0 = some 0 ∧ Fmt.h.sign 0x8000 = true ∧ Fmt.h.sign 0 = false ∧
    (Fmt.h.order 0xFC00).isSome = true ∧ (Fmt.h.order 0x3C00).isSome = true := by decide +kernel

theorem witness_ComparisonsAndMovesToIntegersComplete :
    edge.csr.mstatus.fs ≠ 0 ∧ anyNan .h 0x3C00 0x7E00 = true ∧ (Fmt.h.order 0x7C00).isSome = true := by decide +kernel

theorem witness_NarrowValuesAreBoxed :
    edge.cfg.extD = true ∧ (0xFFFF : Word).toNat < 2 ^ Fmt.h.width ∧
    (edge.wf 5 (box .h 0xFFFF)).rf 5 = edge.cfg.fnorm (box .h 0xFFFF) ∧
    16 ≤ 63 ∧ 63 < 64 ∧ (edge.wf 5 (BitVec.ofNat 64 (2 ^ 63 - 1))).rf 5 = 0x7FFFFFFFFFFFFFFF#64 := by decide +kernel

theorem witness_ExactResultsAreRoundedOnce :
    (Fmt.h.num 0x3C00).isSome = true ∧ (Fmt.s.num 0x7F7FFFFF).isSome = true ∧ (Fmt.d.num 1).isSome = true ∧
    Fmt.h.num 0x3C00 = some 1 ∧ Fmt.h.num 0xBC00 = some (-1) ∧ Fmt.h.num 0x8000 = some 0 ∧ (1 : ℚ) + -1 = 0 ∧
    (1 : ℚ) * 0 = 0 ∧ (1 : ℚ) * 1 + -1 = 0 ∧ -((1 : ℚ) * 1) + 1 = 0 ∧ -((1 : ℚ) * 1) - -1 = 0 := by
  refine ⟨by decide +kernel, by decide +kernel, by decide +kernel, by decide +kernel, by decide +kernel, by decide +kernel, ?_⟩
  norm_num

theorem witness_QuotientsAndRootsAreRoundedOnce :
    Fmt.h.num 0x4000 = some 2 ∧ Fmt.h.num 0x3C00 = some 1 ∧ Fmt.h.num 0x8000 = some 0 ∧ (1 : ℚ) ≠ 0 ∧ (0 : ℚ) ≤ 2 := by
  refine ⟨by decide +kernel, by decide +kernel, by decide +kernel, ?_⟩
  norm_num

theorem witness_SpecialOperandsGiveSpecialResults :
    anySignaling .h 0x7D00 0 = true ∧ anyNan .h 0x7E00 0 = true ∧ anySignaling .h 0x7E00 0 = false ∧
    Fmt.h.val 0x7C00 = .inf false ∧ Fmt.h.val 0xFC00 = .inf true ∧ Fmt.h.val 0xBC00 = .fin true 1024 (-10) ∧
    Fmt.h.val 0 = .fin false 0 (-24) ∧ Fmt.h.val 0x8000 = .fin true 0 (-24) ∧ (Fmt.h.val 0x7E00).isNan = true ∧
    (Fmt.h.val 0x7D00).isSignaling = true ∧ (Fmt.h.val 0x7E00).isSignaling = false ∧ (Fmt.h.num 0x3C00).isSome = true := by
  decide +kernel

theorem witness_IllegalFloatInstructionsTrap :
    State.reset.csr.mstatus.fs = 0 ∧ edge.roundingMode 5 = none ∧ ({ edge with frm := 7 }).roundingMode 7 = none ∧
    (∀ i ∈ [Instr.flw 1 2 0, .fsd 1 2 0, .fsgnj_s 1 2 3, .feq_d 1 2 3, .fmv_x_w 1 2, .fclass_h 1 2, .c_flw 0 0 0, .c_fsdsp 1 0],
      isFloatWithoutMode i = true) ∧
    rmOf (.fmul_s 1 2 3 5) = some 5 ∧ rmOf (.fcvt_d_h 1 2 7) = some 7 ∧ rmOf (.fdiv_h 1 2 3 4) = some 4 := by decide +kernel

/-- Both widths of the counters. -/
theorem witness_InterruptsPendAndCountersAdvance :
    State.reset.cfg.xlen = .rv64 ∧ (State.resetWith .rv32).cfg.xlen = .rv32 ∧ State.reset.cfg.platform = .clint := by decide

theorem witness_FlagsAreSticky : (out (exec (.addi 5 6 1) State.reset)).isSome = true := by decide +kernel

end Sys2Proof.Tests
end

section
/-! A step runs the decoded instruction (00_scope.md R26): which of the cases of `State.run_cases` and `execCode_cases`
the fetch and the decoder pick, and what `step` makes of the outcome. -/

namespace Sys2Proof.Machine

open Sys2Proof

/-- The outcome of the instruction a hart fetches, where no interrupt comes first. -/
theorem State.run_of_fetch_ok {s : State} {code : Code} (hi : s.interrupt = none) (hf : s.fetch = .ok code) :
    s.run = execCode code s := by
  obtain ⟨t, ht, -⟩ | ⟨e, tval, -, he, -⟩ | ⟨code', -, hc, hrun⟩ := s.run_cases
  · rw [hi] at ht; cases ht
  · rw [hf] at he; cases he
  · rw [hf] at hc; cases hc; exact hrun

/-- A fetch that fails raises its exception (60_exceptions.md R721). -/
theorem State.run_of_fetch_error {s : State} {e : Exc} {tval : Word} (hi : s.interrupt = none)
    (hf : s.fetch = .error (e, tval)) : s.run = .next (s.take e tval) := by
  obtain ⟨t, ht, -⟩ | ⟨e', tval', -, he, hrun⟩ | ⟨code, -, hc, -⟩ := s.run_cases
  · rw [hi] at ht; cases ht
  · rw [hf] at he; cases he; exact hrun
  · rw [hf] at hc; cases hc

theorem execCode_of_decode_ok {code : Code} {s : State} {i : Instr} (hd : decode s.cfg code = .ok i) :
    execCode code s = exec i s := by
  obtain ⟨r, hr, -⟩ | ⟨j, hj, hexec⟩ := execCode_cases code s
  · rw [hd] at hr; cases hr
  · rw [hd] at hj; cases hj; exact hexec

/-- Bits that are no instruction are illegal, with the bits for trap value (60_exceptions.md R723). -/
theorem execCode_of_decode_error {code : Code} {s : State} {r : Reject} (hd : decode s.cfg code = .error r) :
    execCode code s = .next (s.take .illegalInstruction code.bits) := by
  obtain ⟨r', -, hill⟩ | ⟨j, hj, -⟩ := execCode_cases code s
  · exact hill
  · rw [hd] at hj; cases hj

/-- A hart that is awake or wakes goes on to the next state of its run, with what advances by itself. -/
theorem step_eq_tick_of_run {s t : State} (hc : s.cfg.wf = true) (hw : s.waiting = false ∨ s.sample.wakes = true)
    (hrun : ({ s.sample with waiting := false } : State).run = .next t) : step s = .next t.tick := by
  have hgo : (s.sample.waiting && !s.sample.wakes) = false := by
    obtain hawake | hwakes := hw
    · simp [hawake]
    · simp [hwakes]
  rw [step_awake hc hgo, hrun, afterStep]

/-- Settles O42, by the case of the run that the fetch and the decoder pick; sampling the inputs and waking leave the
configuration, so the decoder reads the bits as it would before the step. -/
theorem stepRunsTheDecodedInstruction : Obligations.StepRunsTheDecodedInstruction := by
  unfold Obligations.StepRunsTheDecodedInstruction
  intro s hc hw u hi
  have hcfg : u.cfg = s.cfg := s.sample_cfg
  refine ⟨fun code i t hf hd hexec => ?_, fun code r hf hd => ?_, fun e tval hf => ?_⟩
  · rw [← hcfg] at hd
    have hrun : u.run = .next t := by rw [State.run_of_fetch_ok hi hf, execCode_of_decode_ok hd, hexec]
    exact step_eq_tick_of_run hc hw hrun
  · rw [← hcfg] at hd
    have hrun : u.run = .next (u.take .illegalInstruction code.bits) := by
      rw [State.run_of_fetch_ok hi hf, execCode_of_decode_error hd]
    exact step_eq_tick_of_run hc hw hrun
  · exact step_eq_tick_of_run hc hw (State.run_of_fetch_error hi hf)

end Sys2Proof.Machine
end

section
/-! Values of XLEN bits (log 2): which words are such values, and that narrowing, masking and the reads of memory give
one. -/

namespace Sys2Proof

namespace Config

/-- A word is a value of XLEN bits when its number is below 2^XLEN. -/
theorem norm_eq_self_iff (c : Config) (w : Word) : c.norm w = w ↔ w.toNat < 2 ^ c.xlen.bits := by
  rw [← BitVec.toNat_inj, norm_toNat]
  exact ⟨fun h => h ▸ Nat.mod_lt _ (by positivity), Nat.mod_eq_of_lt⟩

theorem norm_of_lt (c : Config) {w : Word} (h : w.toNat < 2 ^ 32) : c.norm w = w :=
  (c.norm_eq_self_iff w).2 (h.trans_le (by cases c.xlen <;> decide))

/-- A value keeps its width when bits of it are cleared. -/
theorem norm_and {c : Config} {w : Word} (h : c.norm w = w) (m : Word) : c.norm (w &&& m) = w &&& m := by
  rw [norm_eq_self_iff] at h ⊢
  exact (BitVec.toNat_and w m ▸ Nat.and_le_left).trans_lt h

theorem norm_or {c : Config} {v w : Word} (hv : c.norm v = v) (hw : c.norm w = w) : c.norm (v ||| w) = v ||| w := by
  rw [norm_eq_self_iff] at hv hw ⊢
  exact BitVec.toNat_or v w ▸ Nat.or_lt_two_pow hv hw

/-- The bits of an instruction fit XLEN. -/
theorem norm_codeBits (c : Config) (code : Code) : c.norm code.bits = code.bits := by
  apply norm_of_lt
  cases code with
  | half w => exact (BitVec.toNat_setWidth_of_le (by decide)).trans_lt (w.isLt.trans (by decide))
  | word w => exact (BitVec.toNat_setWidth_of_le (by decide)).trans_lt w.isLt

end Config

namespace Machine

/-! ### What a read gives -/

/-- A value put together from `n` bytes, the lowest first, is below 256^n. -/
theorem shiftLeft_or_lt {w : Word} {b : Byte} {n : Nat} (h : w.toNat < 2 ^ (8 * n)) :
    (w <<< 8 ||| b.setWidth 64).toNat < 2 ^ (8 * (n + 1)) := by
  have hle : (w <<< 8).toNat ≤ w.toNat <<< 8 := BitVec.toNat_shiftLeft ▸ Nat.mod_le _ _
  have hlt : w.toNat <<< 8 < 2 ^ (8 * (n + 1)) := by
    rw [Nat.shiftLeft_eq, Nat.mul_add, Nat.pow_add]; exact Nat.mul_lt_mul_of_pos_right h (by decide)
  have hb : (b.setWidth 64).toNat < 2 ^ (8 * (n + 1)) :=
    (BitVec.toNat_setWidth_of_le (by decide)).trans_lt
      (b.isLt.trans_le (Nat.pow_le_pow_right (by decide) (by omega)))
  exact BitVec.toNat_or (w <<< 8) (b.setWidth 64) ▸ Nat.or_lt_two_pow (hle.trans_lt hlt) hb

theorem memRead_lt (m : List Host.Cell) (a n : Nat) : (memRead m a n).toNat < 2 ^ (8 * n) := by
  induction n generalizing a with
  | zero => exact Nat.one_pos
  | succ n ih => exact shiftLeft_or_lt (ih (a + 1))

theorem deviceRead_lt (q : DeviceRead) (n : Nat) : (deviceRead q n).toNat < 2 ^ (8 * n) := by
  induction n generalizing q with
  | zero => exact Nat.one_pos
  | succ n ih => exact shiftLeft_or_lt (ih _)

/-- Half of a 64-bit register is below 2^32. -/
theorem partGet_lt (w : Word) {p : Part} (h : p ≠ .both) : (partGet w p).toNat < 2 ^ 32 := by
  cases p with
  | lo | hi => exact (BitVec.toNat_setWidth_of_le (by decide)).trans_lt (BitVec.isLt _)
  | both => exact absurd rfl h

/-- A 64-bit register of the CLINT is `mtimecmp` or `mtime` (60_exceptions.md R770). -/
theorem clintReg64_cases (c : Config) (off : Nat) (p : Part) :
    clintReg64 c off p = none ∨ (∃ h, clintReg64 c off p = some (.mtimecmp h p)) ∨ clintReg64 c off p = some (.mtime p) := by
  unfold clintReg64
  split_ifs <;> simp

/-- What a 4-byte access reads of a register of the CLINT is below 2^32 (60_exceptions.md R770). -/
theorem clintGet_lt {c : Config} {off : Nat} {r : ClintReg} (h : clintReg c off 4 = some r) (k : Clint) :
    (k.get r).toNat < 2 ^ 32 := by
  have hhalf : (if off % 8 = 0 then Part.lo else Part.hi) ≠ .both := by split <;> decide
  unfold clintReg at h
  split at h
  · split at h
    · cases h; simp only [Clint.get]; split <;> decide
    · obtain h' | ⟨i, h'⟩ | h' := clintReg64_cases c off (if off % 8 = 0 then .lo else .hi) <;> rw [h'] at h <;> cases h
      · exact partGet_lt _ hhalf
      · exact partGet_lt _ hhalf
  · rw [if_neg (fun h8 => absurd h8.1 (by decide))] at h
    cases h

theorem State.physRead_four_lt (s : State) (k : Access) (va : Word) (l : Option Nat) (pa : Nat) :
    (s.physRead k va l pa 4).toNat < 2 ^ 32 := by
  unfold State.physRead
  split
  · split
    · rename_i r hr; exact clintGet_lt hr _
    · decide
  · split
    · exact memRead_lt _ _ 4
    · exact deviceRead_lt _ 4

/-- A physical read of XLEN/8 bytes gives a value of XLEN bits. -/
theorem State.norm_physRead (s : State) (k : Access) (va : Word) (l : Option Nat) (pa : Nat) :
    s.cfg.norm (s.physRead k va l pa s.cfg.xlen.bytes) = s.physRead k va l pa s.cfg.xlen.bytes := by
  rw [Config.norm_eq_self_iff]
  cases s.cfg.xlen with
  | rv32 => exact s.physRead_four_lt k va l pa
  | rv64 => exact BitVec.isLt _

end Machine

end Sys2Proof
end

section
/-! What an instruction can do, said once for all of them (00_scope.md R25): how it gets from the state it starts in to
the state it ends from, by the operations of the state (`State.Accessed`, `State.Worked`), and how it ends
(`State.Ends`). A statement about every instruction is a case analysis of these relations. -/

namespace Sys2Proof.Machine

open Sys2Proof

/-! ### Values of XLEN bits -/

/-- The word is a value of XLEN bits, if `pc` and the integer registers hold such values (log 2). -/
def State.Fits (s : State) (w : Word) : Prop :=
  s.cfg.norm s.pc = s.pc → (∀ r, s.cfg.norm (s.rx r) = s.rx r) → s.cfg.norm w = w

theorem State.fits_of_norm {s : State} {w : Word} (h : s.cfg.norm w = w) : s.Fits w := fun _ _ => h

theorem State.fits_norm (s : State) (w : Word) : s.Fits (s.cfg.norm w) := fun _ _ => s.cfg.norm_norm w

theorem State.fits_pc (s : State) : s.Fits s.pc := fun hpc _ => hpc

theorem State.fits_rx (s : State) (r : Reg) : s.Fits (s.rx r) := fun _ hx => hx r

theorem State.fits_zero (s : State) : s.Fits 0 := State.fits_of_norm (s.cfg.norm_of_lt (by decide))

theorem State.Fits.and {s : State} {w : Word} (h : s.Fits w) (m : Word) : s.Fits (w &&& m) :=
  fun hpc hx => Config.norm_and (h hpc hx) m

/-! ### How far an instruction has got -/

/-- From `s` an instruction has got to `u` by register writes and accesses alone: as far as it can be when it raises an
exception (60_exceptions.md R722). -/
inductive State.Accessed (s : State) : State → Prop
  | start : s.Accessed s
  | wx {u : State} (h : s.Accessed u) (r : Reg) (v : Word) : s.Accessed (u.wx r v)
  | physWrite {u : State} (h : s.Accessed u) (pa n : Nat) (v : Word) : s.Accessed (u.physWrite pa n v)

/-- From `s` an instruction that is no CSR instruction and no return has got to `u`, where it completes. The
floating-point registers and flags it writes only with the unit on (44_fd.md R395); a reservation it sets is naturally
aligned (43_a.md R351). -/
inductive State.Worked (s : State) : State → Prop
  | start : s.Worked s
  | wx {u : State} (h : s.Worked u) (r : Reg) (v : Word) : s.Worked (u.wx r v)
  | physWrite {u : State} (h : s.Worked u) (pa n : Nat) (v : Word) : s.Worked (u.physWrite pa n v)
  | wf {u : State} (h : s.Worked u) (on : s.csr.mstatus.fs ≠ 0) (r : Reg) (v : Word) : s.Worked (u.wf r v)
  | accrue {u : State} (h : s.Worked u) (on : s.csr.mstatus.fs ≠ 0) (fl : Flags) : s.Worked (u.accrue fl)
  | reserve {u : State} (h : s.Worked u) {va : Word} {n : Nat} (width : n = 4 ∨ n = 8) (aligned : va.toNat % n = 0) :
      s.Worked { u with resv := some (va, n) }
  | release {u : State} (h : s.Worked u) : s.Worked { u with resv := none }
  | wait {u : State} (h : s.Worked u) (b : Bool) : s.Worked { u with waiting := b }

theorem State.Accessed.worked {s u : State} (h : s.Accessed u) : s.Worked u := by
  induction h with
  | start => exact .start
  | wx _ r v ih => exact ih.wx r v
  | physWrite _ pa n v ih => exact ih.physWrite pa n v

theorem State.Worked.cfg {s u : State} (h : s.Worked u) : u.cfg = s.cfg := by
  induction h <;> simp_all

theorem State.Worked.pc {s u : State} (h : s.Worked u) : u.pc = s.pc := by
  induction h <;> simp_all

theorem State.Worked.after {s u : State} (h : s.Worked u) (n : Nat) : u.after n = s.after n := by
  simp only [State.after, h.cfg, h.pc]

theorem State.Accessed.fits_rx {s u : State} (h : s.Accessed u) (r : Reg) : s.Fits (u.rx r) := by
  induction h with
  | start => exact s.fits_rx r
  | @wx u hu k v ih =>
    rw [State.rx_wx, hu.worked.cfg]
    split
    · exact s.fits_norm v
    · exact ih
  | physWrite _ pa n v ih => simpa using ih

/-! ### The accesses -/

theorem State.Accessed.writeSplit {s u : State} (h : s.Accessed u) (k : Access) (va v : Word) (order : List Nat) :
    s.Accessed (written (State.writeSplit k va v order u)) := by
  induction order generalizing u with
  | nil => exact h
  | cons i order ih =>
    simp only [State.writeSplit]
    split
    · exact h
    · exact ih (h.physWrite _ _ _)

theorem State.Accessed.write {s u : State} (h : s.Accessed u) (k : Access) (va : Word) (n : Nat) (v : Word) :
    s.Accessed (written (u.write k va n v)) := by
  unfold State.write
  split
  · split
    · exact h
    · exact h.writeSplit k va v _
  · split
    · exact h
    · exact h.physWrite _ _ _

theorem State.Accessed.pushAll {s u : State} (h : s.Accessed u) (l : List Reg) (addr : Word) :
    s.Accessed (written (pushAll l addr u)) := by
  induction l generalizing u addr with
  | nil => exact h
  | cons r l ih =>
    simp only [Machine.pushAll]
    have hw := h.write .push addr u.cfg.xlen.bytes (u.rx r)
    split <;> rename_i heq <;> rw [heq] at hw
    · exact hw
    · exact ih hw _

theorem State.Accessed.popAll {s u : State} (h : s.Accessed u) (l : List Reg) (addr : Word) :
    s.Accessed (written (popAll l addr u)) := by
  induction l generalizing u addr with
  | nil => exact h
  | cons r l ih =>
    simp only [Machine.popAll]
    split
    · exact h
    · exact ih (h.wx _ _) _

/-! ### The trap values of the accesses -/

theorem State.readSplit_error {s : State} {k : Access} {va : Word} {order : List Nat} {v : Word} {e : Exc} {tval : Word}
    (h : s.readSplit k va order v = .error (e, tval)) : s.cfg.norm tval = tval := by
  induction order generalizing v with
  | nil => cases h
  | cons i order ih =>
    simp only [State.readSplit] at h
    split at h
    · cases h; exact s.cfg.norm_norm _
    · exact ih h

/-- The trap value of a failed read is its address, or the address of a byte of it (60_exceptions.md R721 (e)). -/
theorem State.read_error {s : State} {k : Access} {va : Word} {n : Nat} {e : Exc} {tval : Word}
    (h : s.read k va n = .error (e, tval)) : tval = va ∨ s.cfg.norm tval = tval := by
  unfold State.read at h
  split at h
  · split at h
    · cases h; exact .inl rfl
    · exact .inr (State.readSplit_error h)
  · split at h <;> cases h
    exact .inl rfl

theorem State.writeSplit_error {c : Config} {k : Access} {va v : Word} {order : List Nat} {s u : State} {e : Exc}
    {tval : Word} (hc : s.cfg = c) (h : State.writeSplit k va v order s = .error (e, tval, u)) : c.norm tval = tval := by
  induction order generalizing s with
  | nil => cases h
  | cons i order ih =>
    simp only [State.writeSplit] at h
    split at h
    · cases h; rw [← hc]; exact Config.norm_norm _ _
    · exact ih (by simpa using hc) h

/-- The trap value of a failed write is its address, or the address of a byte of it (60_exceptions.md R721 (e)). -/
theorem State.write_error {s u : State} {k : Access} {va : Word} {n : Nat} {v : Word} {e : Exc} {tval : Word}
    (h : s.write k va n v = .error (e, tval, u)) : tval = va ∨ s.cfg.norm tval = tval := by
  unfold State.write at h
  split at h
  · split at h
    · cases h; exact .inl rfl
    · exact .inr (State.writeSplit_error rfl h)
  · split at h <;> cases h
    exact .inl rfl

theorem pushAll_error {c : Config} {l : List Reg} {addr : Word} {s u : State} {e : Exc} {tval : Word} (hc : s.cfg = c)
    (ha : c.norm addr = addr) (h : pushAll l addr s = .error (e, tval, u)) : c.norm tval = tval := by
  induction l generalizing s addr with
  | nil => cases h
  | cons r l ih =>
    simp only [pushAll] at h
    split at h <;> rename_i heq
    · cases h
      rcases State.write_error heq with rfl | hn
      · exact ha
      · exact hc ▸ hn
    · rename_i t
      have ht : t.cfg = c := by
        have hw := (State.Accessed.start (s := s)).write .push addr s.cfg.xlen.bytes (s.rx r)
        rw [heq] at hw; exact hw.worked.cfg.trans hc
      exact ih ht (ht ▸ t.cfg.norm_norm _) h

theorem popAll_error {c : Config} {l : List Reg} {addr : Word} {s u : State} {e : Exc} {tval : Word} (hc : s.cfg = c)
    (ha : c.norm addr = addr) (h : popAll l addr s = .error (e, tval, u)) : c.norm tval = tval := by
  induction l generalizing s addr with
  | nil => cases h
  | cons r l ih =>
    simp only [popAll] at h
    split at h
    · rename_i heq
      cases h
      rcases State.read_error heq with rfl | hn
      · exact ha
      · exact hc ▸ hn
    · exact ih (by simpa using hc) (hc ▸ s.cfg.norm_norm _) h

/-! ### How an instruction ends -/

/-- The instructions that access CSRs (40_rv_i.md R250). -/
def isCsr : Instr → Bool
  | .csrrw _ _ _ | .csrrs _ _ _ | .csrrc _ _ _ | .csrrwi _ _ _ | .csrrsi _ _ _ | .csrrci _ _ _ => true
  | _ => false

/-- Where the next instruction can be: after this one, at a target that passed the alignment check, or at a target a
compressed instruction has cleared bit 0 of (10_state.md R45, 40_rv_i.md R272, 48_zc.md R694, R699). -/
inductive State.Target (s : State) (i : Instr) : Word → Prop
  | next : s.Target i (s.after (encode i).len)
  | jump {target : Word} (aligned : s.cfg.aligned target = true) (fits : s.Fits target) : s.Target i target
  | even {target : Word} (half : (encode i).len = 2) (fits : s.Fits target) : s.Target i (target &&& ~~~1#64)

/-- How an instruction ends: it completes, raises an exception, accesses a CSR, or returns from a trap. -/
inductive State.Ends (s : State) (i : Instr) : State → Prop
  | completes {u : State} {target : Word} (work : s.Worked u) (step : s.Target i target) :
      s.Ends i { u.count with pc := target }
  | raises {u : State} {e : Exc} {tval : Word} (access : s.Accessed u) (fits : s.Fits tval) : s.Ends i (u.take e tval)
  | csr {a : BitVec 12} {writes : Bool} {r : Csr} {op : CsrOp} {rd : Reg} {v : Word} {t : State} (kind : isCsr i = true)
      (access : s.csrAccess a writes = some r) (fits : s.Fits v)
      (done : csrRetire writes r ((if writes then s.csrPut r (op.apply (s.csrBase r) v) else s).wx rd (s.csrGet r)) =
        .next t) : s.Ends i t
  | mret (kind : i = .mret) (mode : s.priv = .m) : s.Ends i s.mret.count
  | sret (kind : i = .sret) (ext : s.cfg.extS = true) (mode : s.priv = .m ∨ s.priv = .s) : s.Ends i s.sret.count

/-- The outcome is a next state that ends the instruction. -/
def State.Ending (s : State) (i : Instr) (r : Result) : Prop := ∃ t, r = .next t ∧ s.Ends i t

section

variable {s u : State} {i : Instr} {n len : Nat} {rd : Reg} {v va tval target bits : Word} {e : Exc} {f : Fmt}

theorem State.fits_bitsOf (s : State) (i : Instr) : s.Fits (bitsOf i) :=
  State.fits_of_norm (s.cfg.norm_codeBits (encode i))

theorem State.fits_cbitsOf (s : State) (i : CInstr) : s.Fits (cbitsOf i) :=
  State.fits_of_norm (s.cfg.norm_codeBits (.half i.encode))

/-! ### Completion and exceptions -/

theorem retireAt_ending (h : s.Worked u) (ht : s.Target i target) : s.Ending i (retireAt target u) :=
  ⟨_, rfl, .completes h ht⟩

theorem retire_ending (hn : n = (encode i).len) (h : s.Worked u) : s.Ending i (retire n u) := by
  refine retireAt_ending h ?_
  rw [h.after, hn]; exact .next

theorem put_ending (hn : n = (encode i).len) (h : s.Worked u) : s.Ending i (put n rd v u) := retire_ending hn (h.wx rd v)

theorem raise_ending (h : s.Accessed u) (ht : s.Fits tval) : s.Ending i (raise e tval u) := ⟨_, rfl, .raises h ht⟩

theorem illegal_ending (hb : s.Fits bits) : s.Ending i (illegal bits s) := raise_ending .start hb

/-! ### Control transfer -/

theorem jump_ending (ht : s.Fits target) : s.Ending i (jump n rd target s) := by
  unfold jump
  split
  · rename_i ha; exact retireAt_ending (.wx .start _ _) (.jump ha ht)
  · exact raise_ending .start ht

theorem branch_ending {taken : Bool} (hn : n = (encode i).len) : s.Ending i (branch n taken v s) := by
  unfold branch
  split
  · split
    · rename_i ha; exact retireAt_ending .start (.jump ha (s.fits_norm _))
    · exact raise_ending .start (s.fits_norm _)
  · exact retire_ending hn .start

/-! ### Memory -/

theorem loadInt_ending {ext : Word → Word} (hn : len = (encode i).len) (hva : s.Fits va) :
    s.Ending i (loadInt len rd va n ext s) := by
  obtain ⟨e, tval, hr, h⟩ | ⟨v, -, h⟩ := loadInt_cases len rd va n ext s <;> rw [h]
  · exact raise_ending .start ((State.read_error hr).elim (· ▸ hva) State.fits_of_norm)
  · exact put_ending hn .start

theorem storeVal_ending (hn : len = (encode i).len) (hva : s.Fits va) : s.Ending i (storeVal len va n v s) := by
  have hacc := (State.Accessed.start (s := s)).write .store va n v
  obtain ⟨e, tval, t, hw, h⟩ | ⟨t, hw, h⟩ := storeVal_cases len va n v s <;> rw [h] <;> rw [hw] at hacc
  · exact raise_ending hacc ((State.write_error hw).elim (· ▸ hva) State.fits_of_norm)
  · exact retire_ending hn hacc.worked

theorem loadReserved_ending {ext : Word → Word} (hlen : 4 = (encode i).len) (hn : n = 4 ∨ n = 8) (hva : s.Fits va) :
    s.Ending i (loadReserved rd va n ext s) := by
  obtain ⟨e, -, h⟩ | ⟨pa, ha, h⟩ := loadReserved_cases rd va n ext s <;> rw [h]
  · exact raise_ending .start hva
  · refine put_ending hlen (.reserve .start hn ?_)
    obtain ⟨-, h'⟩ | ⟨e, -, -, h'⟩ | ⟨pa', -, -, -, h'⟩ | ⟨pa', hal, -⟩ := s.alignedAddr_cases .lr va n
    · rw [ha] at h'; cases h'
    · rw [ha] at h'; cases h'
    · rw [ha] at h'; cases h'
    · exact hal

theorem storeConditional_ending (hlen : 4 = (encode i).len) (hva : s.Fits va) :
    s.Ending i (storeConditional rd va n v s) := by
  obtain ⟨e, -, h⟩ | ⟨pa, -, -, -, h⟩ | ⟨pa, -, -, h⟩ := storeConditional_cases rd va n v s <;> rw [h]
  · exact raise_ending .start hva
  · exact put_ending hlen (.release (.physWrite .start pa n v))
  · exact put_ending hlen (.release .start)

theorem amo_ending {ext : Word → Word} {op : Word → Word → Word} (hlen : 4 = (encode i).len) (hva : s.Fits va) :
    s.Ending i (amo rd va n ext op v s) := by
  obtain ⟨e, -, h⟩ | ⟨pa, -, h⟩ := amo_cases rd va n ext op v s <;> rw [h]
  · exact raise_ending .start hva
  · exact put_ending hlen (.physWrite .start _ _ _)

/-! ### Floating point -/

theorem fpGuard_ending {k : Result} (hb : s.Fits bits) (hk : s.csr.mstatus.fs ≠ 0 → s.Ending i k) :
    s.Ending i (fpGuard bits s k) := by
  obtain ⟨-, h⟩ | ⟨on, h⟩ := fpGuard_cases bits s k <;> rw [h]
  · exact illegal_ending hb
  · exact hk on

theorem fpRounded_ending {rm : BitVec 3} {k : RMode → Result} (hb : s.Fits bits)
    (hk : ∀ m, s.csr.mstatus.fs ≠ 0 → s.Ending i (k m)) : s.Ending i (fpRounded bits rm s k) := by
  obtain ⟨-, h⟩ | ⟨m, on, -, h⟩ := fpRounded_cases bits rm s k <;> rw [h]
  · exact illegal_ending hb
  · exact hk m on

theorem putFp_ending {r : Word × Flags} (hlen : 4 = (encode i).len) (on : s.csr.mstatus.fs ≠ 0) :
    s.Ending i (putFp f rd r s) := retire_ending hlen ((State.Worked.start.accrue on r.2).wf on rd _)

theorem putFpInt_ending {r : Word × Flags} (hlen : 4 = (encode i).len) (on : s.csr.mstatus.fs ≠ 0) :
    s.Ending i (putFpInt rd r s) := put_ending hlen (State.Worked.start.accrue on r.2)

theorem loadFp_ending (hn : len = (encode i).len) (hb : s.Fits bits) (hva : s.Fits va) :
    s.Ending i (loadFp len bits f rd va s) := by
  refine fpGuard_ending hb fun on => ?_
  split
  · rename_i hr; exact raise_ending .start ((State.read_error hr).elim (· ▸ hva) State.fits_of_norm)
  · exact retire_ending hn (State.Worked.start.wf on _ _)

theorem storeFp_ending (hn : len = (encode i).len) (hb : s.Fits bits) (hva : s.Fits va) :
    s.Ending i (storeFp len bits f rd va s) := fpGuard_ending hb fun _ => storeVal_ending hn hva

/-! ### CSRs, traps and returns -/

theorem csrInstr_ending {op : CsrOp} {a : BitVec 12} {writes : Bool} (hi : isCsr i = true) (hb : s.Fits bits)
    (hv : s.Fits v) : s.Ending i (csrInstr bits op rd a v writes s) := by
  obtain ⟨-, h⟩ | ⟨r, ha, h⟩ := csrInstr_cases bits op rd a v writes s <;> rw [h]
  · exact illegal_ending hb
  · obtain ⟨h, -⟩ | ⟨h, -⟩ := csrRetire_next writes r
      ((if writes then s.csrPut r (op.apply (s.csrBase r) v) else s).wx rd (s.csrGet r))
    · exact ⟨_, h, .csr hi ha hv h⟩
    · exact ⟨_, h, .csr hi ha hv h⟩

theorem State.fits_uimm (s : State) (uimm : BitVec 5) : s.Fits (uimm.setWidth 64) :=
  State.fits_of_norm (s.cfg.norm_of_lt ((BitVec.toNat_setWidth_of_le (by decide)).trans_lt (uimm.isLt.trans (by decide))))

theorem breakpoint_ending : s.Ending i (raise .breakpoint s.breakpointTval s) := by
  refine raise_ending .start ?_
  unfold State.breakpointTval
  split
  · exact s.fits_pc
  · exact s.fits_zero

theorem execSret_ending : s.Ending .sret (execSret s) := by
  unfold execSret
  split
  · rename_i h
    simp only [Bool.and_eq_true, Bool.or_eq_true, beq_iff_eq] at h
    exact ⟨_, rfl, .sret rfl h.1 (h.2.imp_right And.left)⟩
  · exact illegal_ending (s.fits_bitsOf _)

theorem execMret_ending : s.Ending .mret (execMret s) := by
  unfold execMret
  split
  · rename_i h; exact ⟨_, rfl, .mret rfl (beq_iff_eq.1 h)⟩
  · exact illegal_ending (s.fits_bitsOf _)

theorem execWfi_ending : s.Ending .wfi (execWfi s) := by
  unfold execWfi
  split
  · exact retire_ending rfl (.wait .start _)
  · exact illegal_ending (s.fits_bitsOf _)

theorem execSfenceVma_ending {rs1 rs2 : Reg} : s.Ending (.sfence_vma rs1 rs2) (execSfenceVma rs1 rs2 s) := by
  unfold execSfenceVma
  split
  · exact retire_ending rfl .start
  · exact illegal_ending (s.fits_bitsOf _)

/-! ### Push, pop and table jumps -/

theorem execCmPush_ending {rlist : BitVec 4} {spimm : BitVec 2} :
    s.Ending (.cm_push rlist spimm) (execCmPush rlist spimm s) := by
  have hacc := (State.Accessed.start (s := s)).pushAll (listRegs rlist) (s.ea State.sp (-BitVec.ofNat 64 s.cfg.xlen.bytes))
  unfold execCmPush
  split <;> rename_i hp <;> rw [hp] at hacc
  · exact raise_ending hacc (State.fits_of_norm (pushAll_error rfl (s.cfg.norm_norm _) hp))
  · exact put_ending rfl hacc.worked

theorem popThen_ending {rlist : BitVec 4} {spimm : BitVec 2} {k : State → Result}
    (hk : ∀ u, s.Accessed u → s.Ending i (k u)) : s.Ending i (popThen rlist spimm s k) := by
  have hacc := (State.Accessed.start (s := s)).popAll (listRegs rlist) (s.popStart rlist spimm)
  obtain ⟨e, tval, t, hp, h⟩ | ⟨t, hp, h⟩ := popThen_cases rlist spimm s k <;> rw [h] <;> rw [hp] at hacc
  · exact raise_ending hacc (State.fits_of_norm (popAll_error rfl (s.cfg.norm_norm _) hp))
  · exact hk _ (hacc.wx _ _)

theorem tableJump_ending {index : Nat} {link : State → State} (hi : (encode i).len = 2) (hl : s.Worked (link s)) :
    s.Ending i (tableJump index link s) := by
  obtain ⟨e, -, h⟩ | ⟨pa, -, h⟩ := tableJump_cases index link s <;> rw [h]
  · exact raise_ending .start (s.fits_norm _)
  · exact retireAt_ending hl (.even hi (State.fits_of_norm (s.norm_physRead _ _ _ _)))

end

/-- The address a load, a store or a `jalr` computes is a value of XLEN bits. -/
theorem State.fits_ea (s : State) (base : Reg) (offset : Word) : s.Fits (s.ea base offset) := s.fits_norm _

/-! ### Every instruction -/

/-- Every instruction ends in a next state, in one of the ways of `State.Ends`. -/
theorem exec_ending (i : Instr) (s : State) : s.Ending i (exec i s) := by
  unfold exec
  cases i with
  | lui | auipc | addi | slti | sltiu | xori | ori | andi | slli | srli | srai | add | sub | sll | slt | sltu
    | xor | srl | sra | or | and | addiw | slliw | srliw | sraiw | addw | subw | sllw | srlw | sraw | mul | mulh
    | mulhsu | mulhu | div | divu | rem | remu | mulw | divw | divuw | remw | remuw | add_uw | sh1add | sh2add
    | sh3add | sh1add_uw | sh2add_uw | sh3add_uw | slli_uw | andn | orn | xnor | clz | clzw | ctz | ctzw | cpop
    | cpopw | sext_b | sext_h | max | maxu | min | minu | zext_h_rv32 | zext_h_rv64 | rol | rolw | ror | rori
    | roriw | rorw | orc_b | rev8_rv32 | rev8_rv64 | clmul | clmulh | clmulr | bclr | bclri | bext | bexti
    | binv | binvi | bset | bseti | czero_eqz | czero_nez | c_addi4spn | c_addi | c_addiw | c_li | c_addi16sp
    | c_lui | c_srli | c_srai | c_andi | c_sub | c_xor | c_or | c_and | c_subw | c_addw | c_slli | c_mv | c_add
    | c_zext_b | c_sext_b | c_zext_h | c_sext_h | c_zext_w | c_not | c_mul => exact put_ending rfl .start
  | fence | fence_i | c_nop => exact retire_ending rfl .start
  | cm_mvsa01 | cm_mva01s => exact retire_ending rfl (.wx (.wx .start _ _) _ _)
  | csrrw | csrrs | csrrc => exact csrInstr_ending rfl (s.fits_bitsOf _) (s.fits_rx _)
  | csrrwi | csrrsi | csrrci => exact csrInstr_ending rfl (s.fits_bitsOf _) (s.fits_uimm _)
  | ecall => exact raise_ending .start s.fits_zero
  | ebreak | c_ebreak => exact breakpoint_ending
  | sret => exact execSret_ending
  | mret => exact execMret_ending
  | wfi => exact execWfi_ending
  | sfence_vma => exact execSfenceVma_ending
  | lb | lh | lw | lbu | lhu | lwu | ld | c_lw | c_ld | c_lwsp | c_ldsp | c_lbu | c_lhu | c_lh => exact loadInt_ending rfl (s.fits_ea _ _)
  | sb | sh | sw | sd | c_sw | c_sd | c_swsp | c_sdsp | c_sb | c_sh => exact storeVal_ending rfl (s.fits_ea _ _)
  | jal | c_jal | c_j => exact jump_ending (s.fits_norm _)
  | jalr | c_jr | c_jalr => exact jump_ending ((s.fits_ea _ _).and _)
  | beq | bne | blt | bge | bltu | bgeu | c_beqz | c_bnez => exact branch_ending rfl
  | lr_w => exact loadReserved_ending rfl (.inl rfl) (s.fits_rx _)
  | lr_d => exact loadReserved_ending rfl (.inr rfl) (s.fits_rx _)
  | sc_w | sc_d => exact storeConditional_ending rfl (s.fits_rx _)
  | amoswap_w | amoadd_w | amoxor_w | amoand_w | amoor_w | amomin_w | amomax_w | amominu_w | amomaxu_w
    | amoswap_d | amoadd_d | amoxor_d | amoand_d | amoor_d | amomin_d | amomax_d | amominu_d | amomaxu_d =>
    exact amo_ending rfl (s.fits_rx _)
  | fmadd_s | fmsub_s | fnmsub_s | fnmadd_s | fadd_s | fsub_s | fmul_s | fdiv_s | fsqrt_s | fcvt_s_w | fcvt_s_wu
    | fcvt_s_l | fcvt_s_lu | fmadd_d | fmsub_d | fnmsub_d | fnmadd_d | fadd_d | fsub_d | fmul_d | fdiv_d
    | fsqrt_d | fcvt_d_w | fcvt_d_wu | fcvt_d_l | fcvt_d_lu | fcvt_s_d | fcvt_d_s | fmadd_h | fmsub_h | fnmsub_h
    | fnmadd_h | fadd_h | fsub_h | fmul_h | fdiv_h | fsqrt_h | fcvt_h_w | fcvt_h_wu | fcvt_h_l | fcvt_h_lu
    | fcvt_s_h | fcvt_h_s | fcvt_d_h | fcvt_h_d =>
    exact fpRounded_ending (s.fits_bitsOf _) fun _ on => putFp_ending rfl on
  | fsgnj_s | fsgnjn_s | fsgnjx_s | fmin_s | fmax_s | fsgnj_d | fsgnjn_d | fsgnjx_d | fmin_d | fmax_d | fsgnj_h
    | fsgnjn_h | fsgnjx_h | fmin_h | fmax_h =>
    exact fpGuard_ending (s.fits_bitsOf _) fun on => putFp_ending rfl on
  | fcvt_w_s | fcvt_wu_s | fcvt_l_s | fcvt_lu_s | fcvt_w_d | fcvt_wu_d | fcvt_l_d | fcvt_lu_d | fcvt_w_h
    | fcvt_wu_h | fcvt_l_h | fcvt_lu_h =>
    exact fpRounded_ending (s.fits_bitsOf _) fun _ on => putFpInt_ending rfl on
  | feq_s | flt_s | fle_s | fclass_s | feq_d | flt_d | fle_d | fclass_d | feq_h | flt_h | fle_h | fclass_h =>
    exact fpGuard_ending (s.fits_bitsOf _) fun on => putFpInt_ending rfl on
  | fmv_x_w | fmv_x_d | fmv_x_h => exact fpGuard_ending (s.fits_bitsOf _) fun _ => put_ending rfl .start
  | fmv_w_x | fmv_d_x | fmv_h_x =>
    exact fpGuard_ending (s.fits_bitsOf _) fun on => retire_ending rfl (State.Worked.start.wf on _ _)
  | flw | fld | flh => exact loadFp_ending rfl (s.fits_bitsOf _) (s.fits_ea _ _)
  | fsw | fsd | fsh => exact storeFp_ending rfl (s.fits_bitsOf _) (s.fits_ea _ _)
  | c_fld | c_flw | c_fldsp | c_flwsp => exact loadFp_ending rfl (s.fits_cbitsOf _) (s.fits_ea _ _)
  | c_fsd | c_fsw | c_fsdsp | c_fswsp => exact storeFp_ending rfl (s.fits_cbitsOf _) (s.fits_ea _ _)
  | fcvt_q_h | fcvt_h_q => exact illegal_ending (s.fits_bitsOf _)
  | cm_push => exact execCmPush_ending
  | cm_pop => exact popThen_ending fun _ hu => retire_ending rfl hu.worked
  | cm_popretz =>
    exact popThen_ending fun _ hu => retireAt_ending (hu.worked.wx _ _) (.even rfl (hu.fits_rx _))
  | cm_popret => exact popThen_ending fun _ hu => retireAt_ending hu.worked (.even rfl (hu.fits_rx _))
  | cm_jt => exact tableJump_ending rfl .start
  | cm_jalt => exact tableJump_ending rfl (.wx .start _ _)

/-- What `exec` answers is how the instruction ends. -/
theorem exec_ends {i : Instr} {s t : State} (h : exec i s = .next t) : s.Ends i t := by
  obtain ⟨u, hu, hends⟩ := exec_ending i s
  rw [h] at hu; cases hu; exact hends

end Sys2Proof.Machine
end

section
/-! Alignment and width of addresses (10_state.md R46), and what the decoder says of the length of an instruction. -/

namespace Sys2Proof

namespace Config

/-! ### Alignment and width of addresses -/

theorem mod_two_eq_zero_iff (w : Word) : w.toNat % 2 = 0 ↔ w.getLsbD 0 = false := by
  rw [BitVec.getLsbD, Nat.testBit_zero]; simp

theorem mod_four_eq_zero_iff (w : Word) : w.toNat % 4 = 0 ↔ w.getLsbD 0 = false ∧ w.getLsbD 1 = false := by
  rw [BitVec.getLsbD, BitVec.getLsbD, Nat.testBit_zero, Nat.testBit_succ, Nat.testBit_zero]; simp; omega

/-- An address is aligned when it is a multiple of IALIGN/8 (00_scope.md R16). -/
theorem aligned_eq_true_iff (c : Config) (t : Word) : c.aligned t = true ↔ t.toNat % (if c.extC then 2 else 4) = 0 := by
  unfold aligned
  split <;> simp [← BitVec.toNat_inj, BitVec.extractLsb'_toNat]

theorem aligned_of_mod_four (c : Config) {t : Word} (h : t.toNat % 4 = 0) : c.aligned t = true := by
  rw [aligned_eq_true_iff]; split <;> omega

theorem aligned_of_extC {c : Config} (hc : c.extC = true) {t : Word} (h : t.toNat % 2 = 0) : c.aligned t = true := by
  rw [aligned_eq_true_iff, if_pos hc, h]

/-- Bit 0 of an aligned address is 0 (10_state.md R46). -/
theorem getLsbD_zero_of_aligned {c : Config} {t : Word} (h : c.aligned t = true) : t.getLsbD 0 = false := by
  rw [aligned_eq_true_iff] at h
  rw [← mod_two_eq_zero_iff]
  split at h <;> omega

theorem mod_two_clear (w : Word) : (w &&& ~~~1#64).toNat % 2 = 0 := by
  rw [mod_two_eq_zero_iff]; simp

theorem mod_four_clear (w : Word) : (w &&& ~~~3#64).toNat % 4 = 0 := by
  rw [mod_four_eq_zero_iff]; simp

/-- Narrowing keeps a multiple of 4 one. -/
theorem mod_four_norm (c : Config) {w : Word} (h : w.toNat % 4 = 0) : (c.norm w).toNat % 4 = 0 := by
  rw [norm_toNat]; cases c.xlen <;> simp only [Xlen.bits] <;> omega

/-- The address after an instruction is aligned: a 2-byte instruction needs EXT_C (10_state.md R45, R46). -/
theorem aligned_add {c : Config} {pc : Word} (h : c.aligned pc = true) {n : Nat} (hn : n = 4 ∨ n = 2 ∧ c.extC = true) :
    c.aligned (c.norm (pc + BitVec.ofNat 64 n)) = true := by
  rw [aligned_eq_true_iff] at h ⊢
  have hsum : (c.norm (pc + BitVec.ofNat 64 n)).toNat = (pc.toNat + n % 2 ^ 64) % 2 ^ 64 % 2 ^ c.xlen.bits := by
    rw [norm_toNat, BitVec.toNat_add, BitVec.toNat_ofNat]
  rw [hsum]
  have hmod : n % (if c.extC then 2 else 4) = 0 := by
    rcases hn with rfl | ⟨rfl, hc⟩
    · split <;> rfl
    · rw [if_pos hc]
  have hcases : (if c.extC then 2 else 4) = 2 ∨ (if c.extC then 2 else 4) = 4 := by split <;> simp
  generalize (if c.extC then 2 else 4) = m at *
  rcases hcases with rfl | rfl <;> cases c.xlen <;> simp only [Xlen.bits] <;> omega

theorem fnorm_fnorm (c : Config) (w : Word) : c.fnorm (c.fnorm w) = c.fnorm w := by
  unfold fnorm; split
  · rfl
  · simp

end Config

/-- The rows of the C extension and those that build on it (48_zc.md R670). -/
def Ext.compressed : Ext → Bool
  | .c | .cD | .cF | .zcb | .zcbZbb | .zcbZba | .zcbM | .zcmp | .zcmt => true
  | _ => false

namespace Machine

theorem extC_of_compressed {c : Config} {e : Ext} (h : e.compressed = true) (on : e.on c = true) : c.extC = true := by
  cases e <;> simp_all [Ext.compressed, Ext.on]

/-- An instruction has 2 bytes if it is compressed, else 4 (10_state.md R45). -/
theorem encode_len (c : Config) (i : Instr) : (encode i).len = if (i.row c).ext.compressed then 2 else 4 := by
  cases i <;> rfl

theorem ext_on_of_wf {c : Config} {i : Instr} (h : i.wf c = true) : (i.row c).ext.on c = true := by
  cases hon : (i.row c).ext.on c
  · simp [Instr.wf, Row.rejected, hon] at h
  · rfl

/-- Only with EXT_C is there an instruction of 2 bytes. -/
theorem len_of_wf {c : Config} {i : Instr} (h : i.wf c = true) :
    (encode i).len = 4 ∨ (encode i).len = 2 ∧ c.extC = true := by
  rw [encode_len c i]
  split
  · rename_i hc; exact .inr ⟨rfl, extC_of_compressed hc (ext_on_of_wf h)⟩
  · exact .inl rfl

/-- The decoder answers only instructions the configuration has (30_encoding.md R190). -/
theorem wf_of_decode {c : Config} {code : Code} {i : Instr} (h : decode c code = .ok i) : i.wf c = true := by
  cases code with
  | half w =>
    simp only [decode, decode16] at h
    split at h
    · cases h
    · rename_i j _
      split at h
      · cases h
      · rename_i hj
        cases h
        have hrow : j.toInstr.row c = j.row c := by cases j <;> rfl
        simp [Instr.wf, hrow, hj]
  | word w =>
    simp only [decode, decode32] at h
    split at h
    · cases h
    · split at h
      · cases h
      · rename_i hj; cases h; simp [Instr.wf, hj]

end Machine

end Sys2Proof
end

section
/-! The invariant of the machine (`State.Inv`): each operation of the state keeps it. -/

namespace Sys2Proof.Machine

open Sys2Proof

section

variable {s u t : State}

/-! ### The parts an instruction writes -/

theorem State.Inv.wx (h : s.Inv) (r : Reg) (v : Word) : (s.wx r v).Inv := by
  have hx : ∀ k, s.cfg.norm ((s.wx r v).rx k) = (s.wx r v).rx k := by
    intro k
    rw [State.rx_wx]
    split
    · exact s.cfg.norm_norm v
    · exact h.xWidth k
  rw [State.wx_eq] at hx ⊢
  exact { h with xWidth := hx }

theorem Clint.put_lengths (c : Clint) (v : Word) (r : ClintReg) :
    (c.put v r).mtimecmp.length = c.mtimecmp.length ∧ (c.put v r).msip.length = c.msip.length := by
  cases r <;> simp [Clint.put]

theorem State.Inv.physWrite (h : s.Inv) (pa n : Nat) (v : Word) : (s.physWrite pa n v).Inv := by
  have hm := Memory.wf_physWrite h.memory pa n v
  obtain ⟨-, -, he⟩ | ⟨r, -, -, he⟩ | he := s.physWrite_cases pa n v <;> rw [he] at hm ⊢
  · exact { h with memory := hm }
  · obtain ⟨hcmp, hsip⟩ := s.clint.put_lengths v r
    exact { h with timers := ⟨hcmp.trans h.timers.1, hsip.trans h.timers.2⟩ }
  · exact h

/-- `mstatus.FS` may change where it is not Off already: then the configuration has EXT_F (10_state.md R54). -/
theorem MStatus.Legal.dirty {c : Config} {ms : MStatus} (h : ms.Legal c) (on : ms.fs ≠ 0) :
    MStatus.Legal c { ms with fs := 3 } :=
  { h with noF := fun hf => absurd (h.noF hf) on }

theorem State.Inv.wf (h : s.Inv) (on : s.csr.mstatus.fs ≠ 0) (r : Reg) (v : Word) : (s.wf r v).Inv := by
  have hf : ∀ k, s.cfg.fnorm ((s.wf r v).rf k) = (s.wf r v).rf k := by
    intro k
    rw [State.rf_wf]
    split
    · exact s.cfg.fnorm_fnorm v
    · exact h.fWidth k
  exact { h with fWidth := hf, status := h.status.dirty on, csrs := { h.csrs with } }

theorem State.Inv.accrue (h : s.Inv) (on : s.csr.mstatus.fs ≠ 0) (fl : Flags) : (s.accrue fl).Inv := by
  unfold State.accrue
  split
  · exact h
  · exact { h with status := h.status.dirty on, csrs := { h.csrs with } }

theorem State.Inv.setResv (h : s.Inv) {o : Option (Word × Nat)}
    (ho : ∀ a n, o = some (a, n) → (n = 4 ∨ n = 8) ∧ a.toNat % n = 0) : State.Inv { s with resv := o } :=
  { h with reservation := ho }

theorem State.Inv.setWaiting (h : s.Inv) (b : Bool) : State.Inv { s with waiting := b } := { h with }

theorem State.Inv.setPc (h : s.Inv) {target : Word} (aligned : s.cfg.aligned target = true)
    (width : s.cfg.norm target = target) : State.Inv { s with pc := target } :=
  { h with pcAligned := aligned, pcWidth := width }

theorem State.Inv.count (h : s.Inv) : s.count.Inv := by
  rw [State.ext_count]; exact { h with csrs := { h.csrs with } }

/-- Dirty is not Off (10_state.md R54). -/
theorem three_ne_zero_fs : (3 : BitVec 2) ≠ 0 := by decide

theorem State.Worked.fs_ne_zero (h : s.Worked u) (on : s.csr.mstatus.fs ≠ 0) : u.csr.mstatus.fs ≠ 0 := by
  induction h with
  | start => exact on
  | wx _ r v ih => simpa using ih
  | physWrite _ pa n v ih => simpa using ih
  | wf _ _ r v ih => exact three_ne_zero_fs
  | accrue _ _ fl ih => rw [State.accrue_mstatus]; split; exacts [ih, three_ne_zero_fs]
  | reserve _ _ _ ih => exact ih
  | release _ ih => exact ih
  | wait _ b ih => exact ih

/-- What an instruction does before it ends keeps the invariant. -/
theorem State.Worked.inv (h : s.Worked u) (hs : s.Inv) : u.Inv := by
  induction h with
  | start => exact hs
  | wx _ r v ih => exact ih.wx r v
  | physWrite _ pa n v ih => exact ih.physWrite pa n v
  | wf hu on r v ih => exact ih.wf (hu.fs_ne_zero on) r v
  | accrue hu on fl ih => exact ih.accrue (hu.fs_ne_zero on) fl
  | reserve _ width aligned ih => exact ih.setResv fun a n e => by cases e; exact ⟨width, aligned⟩
  | release _ ih => exact ih.setResv fun _ _ e => nomatch e
  | wait _ b ih => exact ih.setWaiting b

/-! ### Traps -/

/-- A code below 64 fits a cause register with the `Interrupt` bit (10_state.md R66). -/
theorem norm_causeWord (c : Config) (intr : Bool) {code : Nat} (h : code < 64) :
    c.norm (causeWord c.xlen intr code) = causeWord c.xlen intr code := by
  have hcode : c.norm (BitVec.ofNat 64 code) = BitVec.ofNat 64 code :=
    c.norm_of_lt (by rw [BitVec.toNat_ofNat]; omega)
  unfold causeWord
  split
  · refine Config.norm_or hcode ((c.norm_eq_self_iff _).2 ?_)
    cases c.xlen <;> decide
  · exact hcode

/-- A trap goes to an aligned address (60_exceptions.md R743). -/
theorem aligned_vector (c : Config) (tvec : Word) (intr : Bool) (code : Nat) : c.aligned (vector c tvec intr code) = true := by
  apply c.aligned_of_mod_four
  have hbase := Config.mod_four_clear tvec
  unfold vector
  split
  · apply c.mod_four_norm
    rw [BitVec.toNat_add, BitVec.toNat_ofNat]
    omega
  · exact hbase

theorem norm_vector {c : Config} {tvec : Word} (h : c.norm tvec = tvec) (intr : Bool) (code : Nat) :
    c.norm (vector c tvec intr code) = vector c tvec intr code := by
  unfold vector
  split
  · exact c.norm_norm _
  · exact Config.norm_and h _

/-- Replacing one of some values of XLEN bits by another. -/
theorem norm_mem_set {c : Config} {l : List Word} (h : ∀ w ∈ l, c.norm w = w) {v : Word} (hv : c.norm v = v) (j : Nat) :
    ∀ w ∈ l.set j v, c.norm w = w := fun w hw =>
  (List.mem_or_eq_of_mem_set hw).elim (h w) fun e => e ▸ hv

theorem State.Inv.mtvec_width (h : s.Inv) : s.cfg.norm s.csr.mtvec = s.csr.mtvec := h.csrs.width _ (by simp)

theorem State.Inv.stvec_width (h : s.Inv) : s.cfg.norm s.csr.stvec = s.csr.stvec := h.csrs.width _ (by simp)

theorem State.Inv.trapM (h : s.Inv) (intr : Bool) {code : Nat} (hcode : code < 64) {tval : Word}
    (ht : s.cfg.norm tval = tval) : (s.trapM intr code s.pc tval).Inv :=
  { h with
    pcAligned := aligned_vector ..
    pcWidth := norm_vector h.mtvec_width ..
    mode := rfl
    status := { h.status with mpp := h.mode }
    csrs :=
      { h.csrs with
        mepc := Config.getLsbD_zero_of_aligned h.pcAligned
        width := norm_mem_set (norm_mem_set (norm_mem_set h.csrs.width h.pcWidth 4) (norm_causeWord _ intr hcode) 6) ht 8 }
    reservation := fun _ _ e => nomatch e }

theorem State.Inv.trapS (h : s.Inv) (hS : s.cfg.extS = true) (intr : Bool) {code : Nat} (hcode : code < 64) {tval : Word}
    (ht : s.cfg.norm tval = tval) : (s.trapS intr code s.pc tval).Inv :=
  { h with
    pcAligned := aligned_vector ..
    pcWidth := norm_vector h.stvec_width ..
    mode := hS
    status := { h.status with noS := fun no => absurd (hS.symm.trans no) (by decide) }
    csrs :=
      { h.csrs with
        sepc := Config.getLsbD_zero_of_aligned h.pcAligned
        width := norm_mem_set (norm_mem_set (norm_mem_set h.csrs.width h.pcWidth 5) (norm_causeWord _ intr hcode) 7) ht 9 }
    reservation := fun _ _ e => nomatch e }

theorem State.extS_of_delegated {code : Nat} (h : s.delegated code = true) : s.cfg.extS = true := by
  simp only [State.delegated, Bool.and_eq_true] at h; exact h.1.1

theorem Exc.code_lt (e : Exc) : e.code < 64 := by cases e <;> decide

/-- Taking an exception keeps the invariant. -/
theorem State.Inv.take (h : s.Inv) (e : Exc) {tval : Word} (ht : s.cfg.norm tval = tval) : (s.take e tval).Inv := by
  obtain ⟨hd, he⟩ | ⟨-, he⟩ := s.take_cases e tval <;> rw [he]
  · exact h.trapS (State.extS_of_delegated hd) false e.code_lt ht
  · exact h.trapM false e.code_lt ht

/-- Taking an interrupt keeps the invariant. -/
theorem State.Inv.interrupt (h : s.Inv) (hi : s.interrupt = some t) : t.Inv ∧ t.cfg = s.cfg := by
  obtain ⟨i, hmem, ⟨-, rfl⟩ | ⟨hs, rfl⟩⟩ := State.interrupt_cases hi
  all_goals have hi64 : i < 64 := (by decide : ∀ j ∈ interruptOrder, j < 64) i hmem
  all_goals have h0 : s.cfg.norm 0 = 0 := s.cfg.norm_of_lt (by decide)
  · exact ⟨h.trapM true hi64 h0, rfl⟩
  · have hS : s.cfg.extS = true := by
      simp only [State.takeableS, State.intrToS, Bool.and_eq_true] at hs; exact hs.1.2.1
    exact ⟨h.trapS hS true hi64 h0, rfl⟩

/-! ### Returns from a trap -/

/-- The address a return goes to is aligned (10_state.md R65). -/
theorem aligned_epcMask (c : Config) (epc : Word) : c.aligned (epcMask c epc) = true := by
  unfold epcMask
  split
  · rename_i hc; exact Config.aligned_of_extC hc (Config.mod_two_clear epc)
  · exact c.aligned_of_mod_four (Config.mod_four_clear epc)

theorem norm_epcMask {c : Config} {epc : Word} (h : c.norm epc = epc) : c.norm (epcMask c epc) = epcMask c epc := by
  unfold epcMask; split <;> exact Config.norm_and h _

theorem hasMode_leastPriv (c : Config) : c.hasMode (leastPriv c) = true := by
  unfold leastPriv; split <;> simp_all [Config.hasMode]

theorem State.mret_mprv (s : State) : s.mret.csr.mstatus.mprv = (s.csr.mstatus.mprv && s.csr.mstatus.mpp == .m) := rfl

theorem State.Inv.mret (h : s.Inv) : s.mret.Inv :=
  { h with
    pcAligned := aligned_epcMask ..
    pcWidth := norm_epcMask (h.csrs.width _ (by simp))
    mode := h.status.mpp
    status :=
      { h.status with
        mpp := hasMode_leastPriv _
        noU := fun hU => ⟨by rw [State.mret_mprv, (h.status.noU hU).1]; rfl, (h.status.noU hU).2⟩ }
    csrs := { h.csrs with }
    reservation := fun _ _ e => nomatch e }

theorem extU_of_extS {c : Config} (h : c.wf = true) (hS : c.extS = true) : c.extU = true := by
  cases hU : c.extU
  · simp [Config.wf, Config.extensionsOk, hS, hU] at h
  · rfl

theorem State.Inv.sret (h : s.Inv) (hS : s.cfg.extS = true) : s.sret.Inv :=
  { h with
    pcAligned := aligned_epcMask ..
    pcWidth := norm_epcMask (h.csrs.width _ (by simp))
    mode := by
      show s.cfg.hasMode (if s.csr.mstatus.spp then .s else .u) = true
      split
      · exact hS
      · exact extU_of_extS h.config hS
    status :=
      { h.status with
        noS := fun no => absurd (hS.symm.trans no) (by decide)
        noU := fun hU => ⟨rfl, (h.status.noU hU).2⟩ }
    csrs := { h.csrs with }
    reservation := fun _ _ e => nomatch e }

end

end Sys2Proof.Machine
end

section
/-! The CSR access check (10_state.md R52, R81), and what a write of a CSR keeps (R74). -/

namespace Sys2Proof.Machine

open Sys2Proof

/-! ### The access check -/

/-- The counter is not enabled for the mode (10_state.md R81). -/
def State.CounterOff (s : State) (n : Nat) : Prop :=
  (s.priv ≠ .m ∧ s.csr.mcounteren.getLsbD n = false) ∨
    (s.priv = .u ∧ s.cfg.extS = true ∧ s.csr.scounteren.getLsbD n = false)

/-- The reasons to refuse an access to a register that has an address (10_state.md R52, R81; 60_exceptions.md
R723 (f)). -/
def State.Refuses (s : State) (a : BitVec 12) (writes : Bool) (r : Csr) : Prop :=
  r.present s.cfg = false ∨ s.priv.code < a.extractLsb' 8 2 ∨ (writes = true ∧ a.extractLsb' 10 2 = 3#2) ∨
    ((r = .fflags ∨ r = .frm ∨ r = .fcsr) ∧ s.csr.mstatus.fs = 0) ∨
    (r = .satp ∧ s.priv = .s ∧ s.csr.mstatus.tvm = true) ∨
    (∃ n, r.counter = some n ∧ s.CounterOff n)

theorem State.counterOk_iff (s : State) (n : Nat) : s.counterOk n = true ↔ ¬ s.CounterOff n := by
  unfold State.counterOk State.CounterOff
  cases s.priv <;> cases s.cfg.extS <;> simp

/-- The access check refuses for the reasons of `State.Refuses`, and for no other. -/
theorem State.csrAccess_eq {s : State} {a : BitVec 12} {r : Csr} (h : Csr.ofAddr a.toNat = some r) (writes : Bool) :
    (s.Refuses a writes r ∧ s.csrAccess a writes = none) ∨ (¬ s.Refuses a writes r ∧ s.csrAccess a writes = some r) := by
  unfold State.csrAccess
  rw [h]
  simp only
  have hoff : s.fpOff = true ↔ s.csr.mstatus.fs = 0 := beq_iff_eq
  by_cases hr : s.Refuses a writes r
  · refine .inl ⟨hr, ?_⟩
    obtain hp | hm | ⟨hw, hro⟩ | ⟨hf, hfs⟩ | ⟨rfl, hpriv, htvm⟩ | ⟨n, hn, hcnt⟩ := hr
    · simp [hp]
    · simp [hm]
    · simp [hw, hro]
    · rcases hf with rfl | rfl | rfl <;> simp [hoff.2 hfs]
    · simp [hpriv, htvm]
    · have : s.counterOk n = false := by rw [← Bool.not_eq_true, State.counterOk_iff, not_not]; exact hcnt
      simp [hn, this]
  · refine .inr ⟨hr, ?_⟩
    simp only [State.Refuses, not_or, not_and, not_exists, Bool.not_eq_false] at hr
    obtain ⟨hp, hm, hw, hf, ht, hn⟩ := hr
    have hw' : (writes && a.extractLsb' 10 2 == 3#2) = false := by
      rw [Bool.and_eq_false_imp]; exact fun w => beq_false_of_ne (hw w)
    have hf' : ((r == .fflags || r == .frm || r == .fcsr) && s.fpOff) = false := by
      simp only [Bool.and_eq_false_imp, Bool.or_eq_true, beq_iff_eq, or_assoc]
      exact fun hr => Bool.eq_false_iff.2 fun e => hf hr (hoff.1 e)
    have ht' : (r == .satp && s.priv == .s && s.csr.mstatus.tvm) = false := by
      simp only [Bool.and_eq_false_imp, Bool.and_eq_true, beq_iff_eq]
      exact fun ⟨hr, hp⟩ => Bool.eq_false_iff.2 (ht hr hp)
    cases hc : r.counter with
    | none => simp only [hp, hm, hw', hf', ht']; rfl
    | some n => simp only [hp, hm, hw', hf', ht', (s.counterOk_iff n).2 (hn n hc)]; rfl

theorem State.csrAccess_eq_none_iff (s : State) (a : BitVec 12) (writes : Bool) :
    s.csrAccess a writes = none ↔ ∀ r, Csr.ofAddr a.toNat = some r → s.Refuses a writes r := by
  constructor
  · intro h r hr
    obtain ⟨href, -⟩ | ⟨-, hsome⟩ := State.csrAccess_eq hr writes
    · exact href
    · rw [h] at hsome; cases hsome
  · intro h
    cases hr : Csr.ofAddr a.toNat with
    | none => unfold State.csrAccess; rw [hr]
    | some r =>
      obtain ⟨-, hnone⟩ | ⟨hno, -⟩ := State.csrAccess_eq hr writes
      · exact hnone
      · exact absurd (h r hr) hno

theorem State.csrAccess_some {s : State} {a : BitVec 12} {writes : Bool} {r : Csr} (h : s.csrAccess a writes = some r) :
    Csr.ofAddr a.toNat = some r ∧ ¬ s.Refuses a writes r := by
  cases hr : Csr.ofAddr a.toNat with
  | none => unfold State.csrAccess at h; rw [hr] at h; cases h
  | some r' =>
    obtain ⟨-, hnone⟩ | ⟨hno, hsome⟩ := State.csrAccess_eq hr writes
    · rw [hnone] at h; cases h
    · rw [hsome] at h; cases h; exact ⟨rfl, hno⟩

/-! ### Addresses -/

/-- The address of a register (10_state.md R53). -/
def Csr.addr : Csr → Nat
  | .fflags => 0x001
  | .frm => 0x002
  | .fcsr => 0x003
  | .jvt => 0x017
  | .cycle => 0xC00
  | .time => 0xC01
  | .instret => 0xC02
  | .cycleh => 0xC80
  | .timeh => 0xC81
  | .instreth => 0xC82
  | .sstatus => 0x100
  | .sie => 0x104
  | .stvec => 0x105
  | .scounteren => 0x106
  | .senvcfg => 0x10A
  | .sscratch => 0x140
  | .sepc => 0x141
  | .scause => 0x142
  | .stval => 0x143
  | .sip => 0x144
  | .satp => 0x180
  | .mvendorid => 0xF11
  | .marchid => 0xF12
  | .mimpid => 0xF13
  | .mhartid => 0xF14
  | .mconfigptr => 0xF15
  | .mstatus => 0x300
  | .misa => 0x301
  | .medeleg => 0x302
  | .mideleg => 0x303
  | .mie => 0x304
  | .mtvec => 0x305
  | .mcounteren => 0x306
  | .menvcfg => 0x30A
  | .mstatush => 0x310
  | .menvcfgh => 0x31A
  | .mcountinhibit => 0x320
  | .mscratch => 0x340
  | .mepc => 0x341
  | .mcause => 0x342
  | .mtval => 0x343
  | .mip => 0x344
  | .mcycle => 0xB00
  | .minstret => 0xB02
  | .mcycleh => 0xB80
  | .minstreth => 0xB82
  | .hpmcounter n => 0xC00 + n
  | .hpmcounterh n => 0xC80 + n
  | .mhpmevent n => 0x320 + n
  | .mhpmcounter n => 0xB00 + n
  | .mhpmcounterh n => 0xB80 + n

/-- The numbered counters have the numbers 3 to 31 (10_state.md R53). -/
def Csr.numberOk : Csr → Prop
  | .hpmcounter n | .hpmcounterh n | .mhpmevent n | .mhpmcounter n | .mhpmcounterh n => 3 ≤ n ∧ n ≤ 31
  | _ => True

theorem numbered_eq_some {a base : Nat} {mk : Nat → Csr} {r : Csr} (h : numbered a base mk = some r) :
    r = mk (a - base) ∧ base + 3 ≤ a ∧ a ≤ base + 31 := by
  unfold numbered at h
  split at h
  · rename_i hr; exact ⟨(Option.some.inj h).symm, hr⟩
  · cases h

/-- Each register has one address, and each address at most one register (10_state.md R53). -/
theorem Csr.ofAddr_eq_some_iff (a : Nat) (r : Csr) : Csr.ofAddr a = some r ↔ a = r.addr ∧ r.numberOk := by
  constructor
  · intro h
    unfold Csr.ofAddr at h
    split at h
    case h_47 =>
      simp only [Option.orElse_eq_orElse, Option.orElse_eq_or, Option.or_eq_some_iff] at h
      rcases h with h | ⟨-, h | ⟨-, h | ⟨-, h | ⟨-, h⟩⟩⟩⟩ <;> obtain ⟨rfl, hlo, hhi⟩ := numbered_eq_some h <;>
        exact ⟨by simp only [Csr.addr]; omega, by omega, by omega⟩
    all_goals cases h; exact ⟨rfl, trivial⟩
  · rintro ⟨rfl, hn⟩
    cases r with
    | hpmcounter n | hpmcounterh n | mhpmevent n | mhpmcounter n | mhpmcounterh n =>
      obtain ⟨hlo, hhi⟩ := hn
      interval_cases n <;> rfl
    | _ => rfl

/-! ### The table of the registers -/

theorem exists_numbered_iff (base a n : Nat) :
    (∃ i < 29, base + 3 + i = a ∧ i + 3 = n) ↔ a = base + n ∧ 3 ≤ n ∧ n ≤ 31 := by
  constructor
  · rintro ⟨i, hi, rfl, rfl⟩; omega
  · rintro ⟨rfl, hlo, hhi⟩; exact ⟨n - 3, by omega, by omega, by omega⟩

/-- The table of 10_state.md R53 lists, for the configurations that have it, each register at its address. -/
theorem mem_csrTable_iff (c : Config) (a : Nat) (r : Csr) :
    (a, r) ∈ csrTable c ↔ (a = r.addr ∧ r.numberOk) ∧ r.present c = true := by
  cases r with
  | hpmcounter n | mhpmcounter n | mhpmevent n =>
    simp [csrTable, Csr.addr, Csr.numberOk, Csr.present, exists_numbered_iff]
  | hpmcounterh n | mhpmcounterh n =>
    simp [csrTable, Csr.addr, Csr.numberOk, Csr.present, exists_numbered_iff]
    exact and_comm
  | _ => simp [csrTable, Csr.addr, Csr.numberOk, Csr.present] <;> tauto

/-- The user counters are numbered by the low 5 bits of their address (10_state.md R81). -/
theorem Csr.counter_eq {r : Csr} (h : r.numberOk) :
    r.counter =
      if 0xC00 ≤ r.addr ∧ r.addr < 0xC20 ∨ 0xC80 ≤ r.addr ∧ r.addr < 0xCA0 then some (r.addr % 32) else none := by
  cases r with
  | hpmcounter n | hpmcounterh n =>
    obtain ⟨hlo, hhi⟩ := h
    rw [if_pos (by simp only [Csr.addr]; omega)]
    simp only [Csr.counter, Csr.addr, Option.some.injEq]
    omega
  | mhpmevent n | mhpmcounter n | mhpmcounterh n =>
    obtain ⟨hlo, hhi⟩ := h
    rw [if_neg (by simp only [Csr.addr]; omega)]
    rfl
  | _ => rfl

/-- A CSR instruction whose access is refused is illegal (10_state.md R52). -/
theorem csrInstr_refused {s : State} {a : BitVec 12} {writes : Bool} (h : s.csrAccess a writes = none) (bits : Word)
    (op : CsrOp) (rd : Reg) (v : Word) :
    csrInstr bits op rd a v writes s = .next (s.take .illegalInstruction bits) := by
  obtain ⟨-, hill⟩ | ⟨r, hr, -⟩ := csrInstr_cases bits op rd a v writes s
  · exact hill
  · rw [h] at hr; cases hr

/-- Settles O25: the check refuses for the reasons of `State.Refuses` alone, the table is that of `Csr.addr`, and a
refused instruction is illegal. -/
theorem csrAccessIsChecked : Obligations.CsrAccessIsChecked := by
  unfold Obligations.CsrAccessIsChecked
  refine ⟨State.csrAccess_eq_none_iff, ⟨fun c a r _ => ⟨?_, fun hmem => ?_⟩, fun s a writes r h => ?_, by decide⟩,
    fun s rd rs1 uimm a => ⟨fun h => ⟨?_, ?_⟩, fun h => ⟨?_, ?_⟩, fun h => ⟨?_, ?_⟩⟩⟩
  · rw [Csr.ofAddr_eq_some_iff, mem_csrTable_iff]
  · obtain ⟨⟨rfl, hn⟩, -⟩ := (mem_csrTable_iff c a r).1 hmem
    exact Csr.counter_eq hn
  · exact (State.csrAccess_some h).1
  all_goals exact csrInstr_refused h ..

end Sys2Proof.Machine
end

section
/-! A write of a CSR keeps its legal values (10_state.md R74), so every way an instruction ends keeps the invariant, and
so does every step. -/

namespace Sys2Proof.Machine

open Sys2Proof

section

variable {s t : State} {c : Config}

/-! ### Legal values -/

theorem and_not_eq_zero_of_and (v m : Word) : v &&& m &&& ~~~m = 0 := by
  rw [BitVec.and_assoc, BitVec.and_not_self]; simp

/-- A write through a view with mask `d` of a register with mask `m` (10_state.md R68). -/
theorem view_and_not_eq_zero {old m : Word} (h : old &&& ~~~m = 0) (v d : Word) :
    ((old &&& ~~~d) ||| (v &&& d &&& m)) &&& ~~~m = 0 := by
  apply BitVec.eq_of_getLsbD_eq
  intro k hk
  have hb := congrArg (fun w => w.getLsbD k) h
  have hz : (0 : Word).getLsbD k = false := BitVec.getLsbD_zero
  simp only [BitVec.getLsbD_and, BitVec.getLsbD_or, BitVec.getLsbD_not, hk, hz, decide_true, Bool.true_and] at hb ⊢
  generalize old.getLsbD k = a, m.getLsbD k = b, d.getLsbD k = e, v.getLsbD k = w at *
  revert a b e w
  decide

theorem tvecOf_legal {old : Word} (h : old.extractLsb' 0 2 = 0#2 ∨ old.extractLsb' 0 2 = 1#2 ∧ c.mtvecVectored = true)
    (v : Word) :
    (tvecOf c old v).extractLsb' 0 2 = 0#2 ∨ (tvecOf c old v).extractLsb' 0 2 = 1#2 ∧ c.mtvecVectored = true := by
  simp only [tvecOf]
  split
  · assumption
  · exact h

theorem norm_tvecOf {old v : Word} (ho : c.norm old = old) (hv : c.norm v = v) : c.norm (tvecOf c old v) = tvecOf c old v := by
  simp only [tvecOf]; split <;> assumption

theorem low32_low32 (v : Word) : low32 (low32 v) = low32 v := by simp [low32]

/-- The number of a word put together from fields. -/
theorem toNat_append_eq {m n : Nat} (x : BitVec m) (y : BitVec n) : (x ++ y).toNat = x.toNat * 2 ^ n + y.toNat := by
  rw [BitVec.toNat_append, ← Nat.shiftLeft_add_eq_or_of_lt y.isLt, Nat.shiftLeft_eq]

/-- A word put together from three fields has those fields. -/
theorem extractLsb'_append_append {m n p : Nat} (x : BitVec m) (y : BitVec n) (z : BitVec p) (h : m + n + p ≤ 64) :
    ((x ++ y ++ z).setWidth 64).extractLsb' (n + p) m = x ∧ ((x ++ y ++ z).setWidth 64).extractLsb' p n = y ∧
      ((x ++ y ++ z).setWidth 64).extractLsb' 0 p = z := by
  refine ⟨?_, ?_, ?_⟩ <;> apply BitVec.eq_of_getLsbD_eq <;> intro k hk
  · simp [BitVec.getLsbD_append, hk, show n + p + k < 64 by omega, show ¬ n + p + k < p by omega,
      show n + p + k - p = n + k by omega]
  · simp [BitVec.getLsbD_append, hk, show p + k < 64 by omega]
  · simp [BitVec.getLsbD_append, hk, show k < 64 by omega]

/-- A value `satp` takes is one it takes again (10_state.md R69). -/
theorem satpOf_satpOf {old : Word} (h : ∀ o, satpOf c o old = old) (v o : Word) :
    satpOf c o (satpOf c old v) = satpOf c old v := by
  unfold satpOf at *
  cases hx : c.xlen with
  | rv32 =>
    simp only [hx] at h ⊢
    by_cases hm : v.extractLsb' 31 1 = 0#1 ∨ c.paging = true
    · simp only [if_pos hm]
      obtain ⟨hmode, hasid, hppn⟩ := extractLsb'_append_append (v.extractLsb' 31 1)
        (v.extractLsb' 22 9 &&& BitVec.ofNat 9 (2 ^ c.asidLen - 1)) (v.extractLsb' 0 22) (by decide)
      simp only [Nat.reduceAdd] at hmode
      rw [hmode, hasid, hppn, if_pos hm, BitVec.and_assoc, BitVec.and_self]
    · simp only [if_neg hm]; exact h o
  | rv64 =>
    simp only [hx] at h ⊢
    by_cases hm : v.extractLsb' 60 4 = 0#4 ∨ v.extractLsb' 60 4 = 8#4 ∧ c.paging = true
    · simp only [if_pos hm]
      obtain ⟨hmode, hasid, hppn⟩ := extractLsb'_append_append (v.extractLsb' 60 4)
        (v.extractLsb' 44 16 &&& BitVec.ofNat 16 (2 ^ c.asidLen - 1)) (v.extractLsb' 0 44) (by decide)
      simp only [Nat.reduceAdd, BitVec.setWidth_eq] at hmode hasid hppn
      rw [hmode, hasid, hppn, if_pos hm, BitVec.and_assoc, BitVec.and_self]
    · simp only [if_neg hm]; exact h o

theorem mppOf_legal {old : Priv} (h : c.hasMode old = true) (v : BitVec 2) : c.hasMode (mppOf c old v) = true := by
  unfold mppOf
  split_ifs with h3 h1 h0
  · rfl
  · exact h1.2
  · exact h0.2
  · exact h

theorem mstatusOf_legal {ms : MStatus} (h : ms.Legal c) (v : Word) : (mstatusOf c ms v).Legal c where
  mpp := mppOf_legal h.mpp _
  noS hS := by simp [mstatusOf, hS]
  noU hU := by simp [mstatusOf, hU]
  noF hF := by simp [mstatusOf, hF]

theorem sstatusOf_legal {ms : MStatus} (h : ms.Legal c) (v : Word) : (sstatusOf c ms v).Legal c where
  mpp := h.mpp
  noS hS := by simp [sstatusOf, mstatusOf, hS, h.noS hS]
  noU hU := h.noU hU
  noF hF := by simp [sstatusOf, mstatusOf, hF]

/-- The registers that hold any value of XLEN bits, or all but its low ones. -/
def wideCsrs : List Csr :=
  [.mtvec, .stvec, .mscratch, .sscratch, .mepc, .sepc, .mcause, .scause, .mtval, .stval, .jvt]

/-- Such a register reads as a value of XLEN bits. -/
theorem State.Inv.norm_csrBase (h : s.Inv) {r : Csr} (hr : r ∈ wideCsrs) : s.cfg.norm (s.csrBase r) = s.csrBase r := by
  have hw := h.csrs.width
  simp only [List.forall_mem_cons] at hw
  obtain ⟨h1, h2, h3, h4, h5, h6, h7, h8, h9, h10, h11, -⟩ := hw
  simp only [wideCsrs, List.mem_cons, List.not_mem_nil, or_false] at hr
  rcases hr with rfl | rfl | rfl | rfl | rfl | rfl | rfl | rfl | rfl | rfl | rfl
  case inr.inr.inr.inr.inl | inr.inr.inr.inr.inr.inl => exact norm_epcMask ‹_›
  all_goals assumption

theorem clear_and_eq_zero (v m : Word) : v &&& ~~~m &&& m = 0 := by
  rw [BitVec.and_assoc, BitVec.and_comm (~~~m), BitVec.and_not_self]; simp

/-- A write of a CSR keeps the invariant: the registers that keep a value of XLEN bits are written one, and a
floating-point register only with the unit on (10_state.md R52, R74). -/
theorem State.Inv.csrPut (h : s.Inv) {r : Csr} {v : Word} (hw : r ∈ wideCsrs → s.cfg.norm v = v)
    (hf : r = .fflags ∨ r = .frm ∨ r = .fcsr → s.csr.mstatus.fs ≠ 0) : (s.csrPut r v).Inv := by
  cases r with
  | fflags | frm | fcsr => exact { h with status := h.status.dirty (hf (by simp)), csrs := { h.csrs with } }
  | jvt =>
    exact
      { h with
        csrs :=
          { h.csrs with
            jvt := clear_and_eq_zero v 63#64
            width := norm_mem_set h.csrs.width (Config.norm_and (hw (by decide)) _) 10 } }
  | sstatus => exact { h with status := sstatusOf_legal h.status v, csrs := { h.csrs with } }
  | mstatus => exact { h with status := mstatusOf_legal h.status v, csrs := { h.csrs with } }
  | sie => exact { h with csrs := { h.csrs with mie := view_and_not_eq_zero h.csrs.mie v _ } }
  | mie => exact { h with csrs := { h.csrs with mie := and_not_eq_zero_of_and v _ } }
  | medeleg => exact { h with csrs := { h.csrs with medeleg := and_not_eq_zero_of_and v _ } }
  | mideleg => exact { h with csrs := { h.csrs with mideleg := and_not_eq_zero_of_and v _ } }
  | mcountinhibit => exact { h with csrs := { h.csrs with mcountinhibit := and_not_eq_zero_of_and v _ } }
  | mcounteren => exact { h with csrs := { h.csrs with mcounteren := low32_low32 v } }
  | scounteren => exact { h with csrs := { h.csrs with scounteren := low32_low32 v } }
  | satp => exact { h with csrs := { h.csrs with satp := satpOf_satpOf h.csrs.satp v } }
  | mtvec =>
    exact
      { h with
        csrs :=
          { h.csrs with
            mtvec := tvecOf_legal h.csrs.mtvec v
            width := norm_mem_set h.csrs.width (norm_tvecOf h.mtvec_width (hw (by decide))) 0 } }
  | stvec =>
    exact
      { h with
        csrs :=
          { h.csrs with
            stvec := tvecOf_legal h.csrs.stvec v
            width := norm_mem_set h.csrs.width (norm_tvecOf h.stvec_width (hw (by decide))) 1 } }
  | mepc =>
    exact
      { h with
        csrs :=
          { h.csrs with
            mepc := by simp [State.csrPut]
            width := norm_mem_set h.csrs.width (Config.norm_and (hw (by decide)) _) 4 } }
  | sepc =>
    exact
      { h with
        csrs :=
          { h.csrs with
            sepc := by simp [State.csrPut]
            width := norm_mem_set h.csrs.width (Config.norm_and (hw (by decide)) _) 5 } }
  | mscratch => exact { h with csrs := { h.csrs with width := norm_mem_set h.csrs.width (hw (by decide)) 2 } }
  | sscratch => exact { h with csrs := { h.csrs with width := norm_mem_set h.csrs.width (hw (by decide)) 3 } }
  | mcause => exact { h with csrs := { h.csrs with width := norm_mem_set h.csrs.width (hw (by decide)) 6 } }
  | scause => exact { h with csrs := { h.csrs with width := norm_mem_set h.csrs.width (hw (by decide)) 7 } }
  | mtval => exact { h with csrs := { h.csrs with width := norm_mem_set h.csrs.width (hw (by decide)) 8 } }
  | stval => exact { h with csrs := { h.csrs with width := norm_mem_set h.csrs.width (hw (by decide)) 9 } }
  | sip | mip | mcycle | minstret | mcycleh | minstreth => exact { h with csrs := { h.csrs with } }
  | _ => exact h

/-- A write of a CSR changes nothing but the CSRs and the floating-point flags and rounding mode. -/
theorem State.csrPut_eq (s : State) (r : Csr) (v : Word) :
    ∃ csr fl rm, s.csrPut r v = { s with csr := csr, fflags := fl, frm := rm } := by
  cases r <;> exact ⟨_, _, _, rfl⟩

theorem CsrOp.norm_apply {old v : Word} (ho : c.norm old = old) (hv : c.norm v = v) (op : CsrOp) :
    c.norm (op.apply old v) = op.apply old v := by
  cases op with
  | write => exact hv
  | set => exact Config.norm_or ho hv
  | clear => exact Config.norm_and ho _

/-! ### Every way an instruction ends -/

/-- Where an instruction goes on is an aligned address of XLEN bits (10_state.md R46). -/
theorem State.Target.aligned_norm {i : Instr} {target : Word} (h : s.Target i target) (hs : s.Inv)
    (hi : i.wf s.cfg = true) : s.cfg.aligned target = true ∧ s.cfg.norm target = target := by
  cases h with
  | next => exact ⟨Config.aligned_add hs.pcAligned (len_of_wf hi), s.cfg.norm_norm _⟩
  | jump aligned fits => exact ⟨aligned, fits hs.pcWidth hs.xWidth⟩
  | even half fits =>
    obtain hlen | ⟨-, hc⟩ := len_of_wf hi
    · rw [half] at hlen; cases hlen
    · exact ⟨Config.aligned_of_extC hc (Config.mod_two_clear _), Config.norm_and (fits hs.pcWidth hs.xWidth) _⟩

/-- What a CSR instruction writes keeps the invariant. -/
theorem State.Inv.csrWritten (hs : s.Inv) {a : BitVec 12} {writes : Bool} {r : Csr} {op : CsrOp} {rd : Reg} {v : Word}
    (access : s.csrAccess a writes = some r) (fits : s.Fits v) :
    ((if writes then s.csrPut r (op.apply (s.csrBase r) v) else s).wx rd (s.csrGet r)).Inv := by
  refine State.Inv.wx ?_ _ _
  split
  · refine hs.csrPut (fun hr => CsrOp.norm_apply (hs.norm_csrBase hr) (fits hs.pcWidth hs.xWidth) op) fun hr hoff => ?_
    exact (State.csrAccess_some access).2 (.inr (.inr (.inr (.inl ⟨hr, hoff⟩))))
  · exact hs

/-- A CSR instruction leaves the configuration and `pc` until it retires. -/
theorem State.csrWritten_cfg_pc (s : State) (writes : Bool) (r : Csr) (v w : Word) (rd : Reg) :
    ((if writes then s.csrPut r v else s).wx rd w).cfg = s.cfg ∧ ((if writes then s.csrPut r v else s).wx rd w).pc = s.pc := by
  rw [State.wx_cfg, State.wx_pc]
  split
  · obtain ⟨csr, fl, rm, he⟩ := s.csrPut_eq r v
    rw [he]; exact ⟨rfl, rfl⟩
  · exact ⟨rfl, rfl⟩

theorem State.Ends.inv {i : Instr} (h : s.Ends i t) (hs : s.Inv) (hi : i.wf s.cfg = true) : t.Inv ∧ t.cfg = s.cfg := by
  cases h with
  | completes work step =>
    have hu := work.inv hs
    obtain ⟨ha, hn⟩ := step.aligned_norm hs hi
    rw [← work.cfg, ← State.count_cfg] at ha hn
    exact ⟨hu.count.setPc ha hn, by simpa using work.cfg⟩
  | raises access fits =>
    have ht := fits hs.pcWidth hs.xWidth
    rw [← access.worked.cfg] at ht
    exact ⟨(access.worked.inv hs).take _ ht, by simpa using access.worked.cfg⟩
  | @csr a writes r op rd v _ kind access fits done =>
    have hw := hs.csrWritten (op := op) (rd := rd) access fits
    obtain ⟨hcfg, hpc⟩ := s.csrWritten_cfg_pc writes r (op.apply (s.csrBase r) v) (s.csrGet r) rd
    have hal : ∀ {u : State}, u.Inv → u.cfg.aligned (u.after 4) = true := fun hu =>
      Config.aligned_add hu.pcAligned (.inl rfl)
    obtain ⟨he, -⟩ | ⟨he, -⟩ := csrRetire_next writes r
      ((if writes then s.csrPut r (op.apply (s.csrBase r) v) else s).wx rd (s.csrGet r))
    · rw [he] at done; cases done
      exact ⟨hw.setPc (hal hw) (Config.norm_norm _ _), hcfg⟩
    · rw [he] at done; cases done
      refine ⟨hw.count.setPc ?_ ?_, (State.count_cfg _).trans hcfg⟩
      · rw [State.count_cfg]; exact hal hw
      · rw [State.count_cfg]; exact Config.norm_norm _ _
  | mret kind mode => exact ⟨hs.mret.count, by simp⟩
  | sret kind ext mode => exact ⟨(hs.sret ext).count, by simp⟩

/-! ### Every step -/

theorem State.Inv.sample (h : s.Inv) : s.sample.Inv := by
  unfold State.sample; split
  · exact h
  · exact { h with }

theorem State.Inv.advanceTime (h : s.Inv) : s.advanceTime.Inv := { h with }

theorem State.Inv.redraw (h : s.Inv) : s.redraw.Inv := { h with }

theorem State.Inv.advanceCycle (h : s.Inv) : s.advanceCycle.Inv := by
  unfold State.advanceCycle; split
  · exact h
  · exact { h with csrs := { h.csrs with } }

/-- The trap value of a failed fetch is an address of a parcel or the first parcel itself (60_exceptions.md R721). -/
theorem State.Inv.fetch_error (h : s.Inv) {e : Exc} {tval : Word} (hf : s.fetch = .error (e, tval)) :
    s.cfg.norm tval = tval := by
  have hread : ∀ {va : Word}, s.cfg.norm va = va → s.read .fetch va 2 = .error (e, tval) → s.cfg.norm tval = tval :=
    fun hva hr => (State.read_error hr).elim (· ▸ hva) id
  unfold State.fetch at hf
  split at hf
  · cases hf; exact hread h.pcWidth ‹_›
  · split at hf
    · cases hf
    · split at hf
      · cases hf; exact hread (s.cfg.norm_norm _) ‹_›
      · cases hf
        exact s.cfg.norm_codeBits (.half _)
    · split at hf
      · cases hf; exact hread (s.cfg.norm_norm _) ‹_›
      · cases hf

/-- What an awake hart does keeps the invariant. -/
theorem State.Inv.run (h : s.Inv) (hrun : s.run = .next t) : t.Inv ∧ t.cfg = s.cfg := by
  obtain ⟨u, hi, he⟩ | ⟨e, tval, -, hf, he⟩ | ⟨code, -, -, he⟩ := s.run_cases <;> rw [he] at hrun
  · cases hrun; exact h.interrupt hi
  · cases hrun; exact ⟨h.take e (h.fetch_error hf), s.take_cfg e tval⟩
  · obtain ⟨r, -, hc⟩ | ⟨i, hd, hc⟩ := execCode_cases code s <;> rw [hc] at hrun
    · cases hrun; exact ⟨h.take _ (s.cfg.norm_codeBits code), s.take_cfg _ _⟩
    · exact (exec_ends hrun).inv h (wf_of_decode hd)

/-- Settles O40: sampling and ticking keep the invariant, and so does what an awake hart does between them. -/
theorem everyStepKeepsTheInvariant : Obligations.EveryStepKeepsTheInvariant := by
  unfold Obligations.EveryStepKeepsTheInvariant
  intro s t h hstep
  cases hw : s.sample.waiting && !s.sample.wakes
  · rw [step_awake h.config hw] at hstep
    cases hrun : State.run { s.sample with waiting := false } with
    | next u =>
      rw [hrun] at hstep; cases hstep
      obtain ⟨hu, hcfg⟩ := (h.sample.setWaiting false).run hrun
      exact ⟨hu.advanceCycle.advanceTime.redraw, by simpa using hcfg⟩
    | fault f => cases f
    | refused r => rw [hrun] at hstep; cases hstep
  · rw [step_waiting h.config hw] at hstep; cases hstep
    exact ⟨h.sample.advanceTime.redraw, by simp⟩

/-! ### Reset -/

/-- What the configuration says of RESET_PC (70_reset_and_hazards.md R791). -/
theorem resetPc_of_wf (hc : c.wf = true) : c.resetPc.toNat % 4 = 0 ∧ c.resetPc.toNat < 2 ^ c.xlen.bits := by
  simp only [Config.wf, Config.mapOk, Bool.and_eq_true, beq_iff_eq, decide_eq_true_eq] at hc
  obtain ⟨-, ⟨⟨⟨-, -⟩, hmod⟩, hlt⟩, -⟩ := hc
  exact ⟨hmod, hlt⟩

theorem MStatus.reset_legal (c : Config) : (MStatus.reset c).Legal c where
  mpp := hasMode_leastPriv c
  noS _ := ⟨rfl, rfl, rfl, rfl, rfl, rfl, rfl⟩
  noU _ := ⟨rfl, rfl⟩
  noF _ := rfl

theorem satpOf_zero (c : Config) (old : Word) : satpOf c old 0 = 0 := by
  unfold satpOf; cases c.xlen <;> simp

theorem Csrs.reset_legal (c : Config) : (Csrs.reset c).Legal c where
  medeleg := BitVec.zero_and
  mideleg := BitVec.zero_and
  mie := BitVec.zero_and
  mtvec := .inl rfl
  stvec := .inl rfl
  mepc := BitVec.getLsbD_zero
  sepc := BitVec.getLsbD_zero
  satp := satpOf_zero c
  mcounteren := rfl
  scounteren := rfl
  mcountinhibit := BitVec.zero_and
  jvt := BitVec.zero_and
  width w hw := by
    have : w = 0 := by simpa [Csrs.reset] using hw
    rw [this]; exact c.norm_of_lt (by decide)

/-- Settles O39: every register holds 0 after reset, and the configuration gives the reset address. -/
theorem resetMeetsTheInvariant : Obligations.ResetMeetsTheInvariant := by
  unfold Obligations.ResetMeetsTheInvariant
  intro c hc
  obtain ⟨hmod, hlt⟩ := resetPc_of_wf hc
  have hx : ∀ r, (State.resetWith c).rx r = 0 := by intro r; simp [State.rx, State.resetWith]
  have hf : ∀ r, (State.resetWith c).rf r = 0 := by intro r; simp [State.rf, State.resetWith]
  exact
    { config := hc
      memory := Memory.wf_reset c
      pcAligned := c.aligned_of_mod_four hmod
      pcWidth := (c.norm_eq_self_iff _).2 hlt
      xWidth := fun r => by rw [hx]; exact Config.norm_of_lt _ (by decide)
      fWidth := fun r => by rw [hf]; unfold Config.fnorm; split <;> rfl
      mode := rfl
      status := MStatus.reset_legal c
      csrs := Csrs.reset_legal c
      reservation := fun _ _ e => nomatch e
      timers := ⟨List.length_replicate, List.length_replicate⟩ }

end

end Sys2Proof.Machine
end

section
/-! What holds of every instruction by the ways it can end (`State.Ends`): which modes it leaves (10_state.md R50), what
it changes when it is run in U-mode (R52), and which floating-point flags it clears (R49). -/

namespace Sys2Proof.Machine

open Sys2Proof

section

variable {s u t : State} {i : Instr}

/-! ### What an instruction leaves before it ends -/

/-- Accesses and register writes leave every CSR. -/
theorem State.Accessed.frame (h : s.Accessed u) :
    u.cfg = s.cfg ∧ u.pc = s.pc ∧ u.priv = s.priv ∧ u.csr = s.csr ∧ u.fflags = s.fflags ∧ u.frm = s.frm ∧
      u.lines = s.lines ∧ u.env = s.env := by
  induction h with
  | start => simp
  | wx _ r v ih => simpa using ih
  | physWrite _ pa n v ih => simpa using ih

/-- An instruction that is no CSR instruction and no return leaves the mode, and of the CSRs it writes `mstatus.FS` alone,
with the unit on (44_fd.md R395). -/
theorem State.Worked.frame (h : s.Worked u) :
    u.priv = s.priv ∧ u.frm = s.frm ∧ u.lines = s.lines ∧ u.env = s.env ∧
      u.csr = { s.csr with mstatus := { s.csr.mstatus with fs := u.csr.mstatus.fs } } ∧
      (u.csr.mstatus.fs = s.csr.mstatus.fs ∨ s.csr.mstatus.fs ≠ 0 ∧ u.csr.mstatus.fs = 3) := by
  induction h with
  | start => simp
  | wx _ r v ih => simpa using ih
  | physWrite _ pa n v ih => simpa using ih
  | @wf u _ on r v ih =>
    obtain ⟨hp, hr, hl, he, hcsr, -⟩ := ih
    refine ⟨hp, hr, hl, he, ?_, .inr ⟨on, rfl⟩⟩
    simp only [State.wf]; rw [hcsr]
  | @accrue u _ on fl ih =>
    unfold State.accrue
    split
    · exact ih
    · obtain ⟨hp, hr, hl, he, hcsr, -⟩ := ih
      refine ⟨hp, hr, hl, he, ?_, .inr ⟨on, rfl⟩⟩
      simp only; rw [hcsr]
  | reserve _ _ _ ih => exact ih
  | release _ ih => exact ih
  | wait _ b ih => exact ih

/-- A flag that is set stays set (44_fd.md R394). -/
theorem State.Worked.fflags (h : s.Worked u) : s.fflags &&& u.fflags = s.fflags := by
  induction h with
  | start => exact BitVec.and_self
  | wx _ r v ih => simpa using ih
  | physWrite _ pa n v ih => simpa using ih
  | wf _ _ r v ih => exact ih
  | @accrue u _ on fl ih =>
    rw [State.accrue_fflags]
    apply BitVec.eq_of_getLsbD_eq
    intro k _
    have hk := congrArg (fun w => w.getLsbD k) ih
    simp only [BitVec.getLsbD_and, BitVec.getLsbD_or] at hk ⊢
    generalize s.fflags.getLsbD k = a, u.fflags.getLsbD k = b, fl.getLsbD k = c at *
    revert a b c
    decide
  | reserve _ _ _ ih => exact ih
  | release _ ih => exact ih
  | wait _ b ih => exact ih

/-! ### Flags -/

/-- Settles O59: only a CSR instruction writes the flags otherwise than by accrual. -/
theorem flagsAreSticky : Obligations.FlagsAreSticky := by
  unfold Obligations.FlagsAreSticky
  intro s i t h hother
  cases exec_ends h with
  | completes work step => simpa using ⟨work.fflags, work.frame.2.1⟩
  | raises access fits =>
    obtain ⟨-, -, -, -, hfl, hfrm, -⟩ := access.frame
    simp [hfl, hfrm]
  | csr kind access fits done =>
    cases i with
    | csrrw rd rs1 a => exact absurd rfl (hother rd rs1 a).1
    | csrrs rd rs1 a => exact absurd rfl (hother rd rs1 a).2.1
    | csrrc rd rs1 a => exact absurd rfl (hother rd rs1 a).2.2.1
    | csrrwi rd rs1 a => exact absurd rfl (hother rd rs1 a).2.2.2.1
    | csrrsi rd rs1 a => exact absurd rfl (hother rd rs1 a).2.2.2.2.1
    | csrrci rd rs1 a => exact absurd rfl (hother rd rs1 a).2.2.2.2.2
    | _ => cases kind
  | mret kind mode => simp
  | sret kind ext mode => simp

/-! ### Modes -/

/-- An exception is taken in M-mode, or from S-mode or U-mode in S-mode (60_exceptions.md R741). -/
theorem State.take_mode (u : State) (e : Exc) (tval : Word) :
    (∃ m, u.take e tval = m ∧ m.priv = .m ∧ m.csr.mepc = u.pc ∧ m.csr.mstatus.mpp = u.priv ∧
        m.pc = u.csr.mtvec &&& ~~~3#64) ∨
      (∃ m, u.take e tval = m ∧ m.priv = .s ∧ u.priv ≠ .m ∧ m.csr.sepc = u.pc ∧ m.pc = u.csr.stvec &&& ~~~3#64) := by
  obtain ⟨hd, h⟩ | ⟨-, h⟩ := u.take_cases e tval
  · refine .inr ⟨_, h, rfl, ?_, rfl, rfl⟩
    simp only [State.delegated, Bool.and_eq_true, bne_iff_ne] at hd
    exact hd.1.2
  · exact .inl ⟨_, h, rfl, rfl, rfl, rfl⟩

/-- A CSR instruction leaves the mode. -/
theorem csrRetire_priv {writes : Bool} {r : Csr} {v w : Word} {rd : Reg}
    (done : csrRetire writes r ((if writes then s.csrPut r v else s).wx rd w) = .next t) : t.priv = s.priv := by
  have hput : (if writes then s.csrPut r v else s).priv = s.priv := by
    split
    · obtain ⟨csr, fl, rm, he⟩ := s.csrPut_eq r v; rw [he]
    · rfl
  obtain ⟨h, -⟩ | ⟨h, -⟩ := csrRetire_next writes r ((if writes then s.csrPut r v else s).wx rd w) <;> rw [h] at done <;>
    cases done <;> simpa using hput

/-- An instruction leaves the mode, or is a return, or ends in an exception. -/
theorem State.Ends.priv (h : s.Ends i t) :
    t.priv = s.priv ∨ (i = .mret ∨ i = .sret) ∨ ∃ u e tval, s.Accessed u ∧ t = u.take e tval := by
  cases h with
  | completes work step => exact .inl (by simpa using work.frame.1)
  | raises access fits => exact .inr (.inr ⟨_, _, _, access, rfl⟩)
  | csr kind access fits done => exact .inl (csrRetire_priv done)
  | mret kind mode => exact .inr (.inl (.inl kind))
  | sret kind ext mode => exact .inr (.inl (.inr kind))

/-- Settles O32: by the way the instruction ends, only a return lowers the mode, and only an exception raises it. -/
theorem modeChangesOnlyByTrapsAndReturns : Obligations.ModeChangesOnlyByTrapsAndReturns := by
  unfold Obligations.ModeChangesOnlyByTrapsAndReturns
  intro s i t h
  obtain hp | hret | ⟨u, e, tval, access, rfl⟩ := (exec_ends h).priv
  · exact ⟨fun hlt => absurd (hp ▸ hlt) (BitVec.lt_irrefl _), fun hne => absurd hp hne⟩
  · exact ⟨fun _ => hret, fun _ hm hs => (hret.elim hm hs).elim⟩
  · obtain ⟨-, hpc, hpriv, hcsr, -⟩ := access.frame
    rw [← hpriv, ← hpc, ← hcsr]
    obtain ⟨m, hm, hp, hepc, hmpp, hv⟩ | ⟨m, hm, hp, hnm, hepc, hv⟩ := u.take_mode e tval <;> rw [hm, hp]
    · refine ⟨fun hlt => absurd hlt ?_, fun _ _ _ => .inl ⟨rfl, hepc, hmpp, hv⟩⟩
      cases u.priv <;> decide
    · cases hup : u.priv with
      | m => exact absurd hup hnm
      | s => exact ⟨fun hlt => absurd hlt (by decide), fun hne => absurd rfl hne⟩
      | u => exact ⟨fun hlt => absurd hlt (by decide), fun _ _ _ => .inr ⟨rfl, rfl, hepc, hv⟩⟩

/-! ### Instructions run in U-mode -/

/-- The only CSRs an instruction may write in U-mode (10_state.md R52, R53). -/
theorem writable_in_user {a : BitVec 12} {r : Csr} (hu : s.priv = .u) (h : s.csrAccess a true = some r) :
    r ∈ [Csr.fflags, .frm, .fcsr, .jvt] := by
  obtain ⟨haddr, hok⟩ := State.csrAccess_some h
  obtain ⟨haddr, hnum⟩ := (Csr.ofAddr_eq_some_iff _ r).1 haddr
  simp only [State.Refuses, not_or, hu, Priv.code, true_and] at hok
  obtain ⟨-, hpriv, hro, -⟩ := hok
  have hlevel : a.toNat / 256 % 4 = 0 := by
    rw [BitVec.lt_def, BitVec.extractLsb'_toNat, Nat.shiftRight_eq_div_pow] at hpriv
    change ¬ 0 < _ at hpriv
    omega
  have hquad : a.toNat / 1024 % 4 ≠ 3 := by
    rw [← BitVec.toNat_inj, BitVec.extractLsb'_toNat, Nat.shiftRight_eq_div_pow] at hro
    simpa using hro
  rw [haddr] at hlevel hquad
  cases r with
  | fflags | frm | fcsr | jvt => decide
  | hpmcounter n | hpmcounterh n | mhpmevent n | mhpmcounter n | mhpmcounterh n =>
    obtain ⟨hlo, hhi⟩ := hnum
    simp only [Csr.addr] at hlevel hquad
    omega
  | _ => simp [Csr.addr] at hlevel hquad

/-- A write of one of them changes `jvt` or, with the unit on, makes the floating-point state dirty (10_state.md R49,
R73). -/
theorem csrPut_user {r : Csr} (hr : r ∈ [Csr.fflags, .frm, .fcsr, .jvt])
    (on : r = .fflags ∨ r = .frm ∨ r = .fcsr → s.csr.mstatus.fs ≠ 0) (v : Word) :
    ∃ j fs, (s.csrPut r v).csr = { s.csr with jvt := j, mstatus := { s.csr.mstatus with fs := fs } } ∧
      (fs = s.csr.mstatus.fs ∨ s.csr.mstatus.fs ≠ 0 ∧ fs = 3) := by
  simp only [List.mem_cons, List.not_mem_nil, or_false] at hr
  rcases hr with rfl | rfl | rfl | rfl
  · exact ⟨s.csr.jvt, 3, rfl, .inr ⟨on (by simp), rfl⟩⟩
  · exact ⟨s.csr.jvt, 3, rfl, .inr ⟨on (by simp), rfl⟩⟩
  · exact ⟨s.csr.jvt, 3, rfl, .inr ⟨on (by simp), rfl⟩⟩
  · exact ⟨v &&& ~~~63#64, s.csr.mstatus.fs, rfl, .inl rfl⟩

/-- What a CSR instruction run in U-mode leaves. -/
theorem csrRetire_user {a : BitVec 12} {writes : Bool} {r : Csr} {v w : Word} {rd : Reg} (hu : s.priv = .u)
    (access : s.csrAccess a writes = some r)
    (done : csrRetire writes r ((if writes then s.csrPut r v else s).wx rd w) = .next t) :
    (t.cfg = s.cfg ∧ t.lines = s.lines ∧ t.env = s.env) ∧ ∃ j fs,
      t.csr = { s.csr with minstret := s.retired, jvt := j, mstatus := { s.csr.mstatus with fs := fs } } ∧
        (fs = s.csr.mstatus.fs ∨ s.csr.mstatus.fs ≠ 0 ∧ fs = 3) := by
  obtain ⟨u, he, hframe, j, fs, hcsr, hfs⟩ : ∃ u, (if writes then s.csrPut r v else s) = u ∧
      (u.cfg = s.cfg ∧ u.lines = s.lines ∧ u.env = s.env) ∧ ∃ j fs,
        u.csr = { s.csr with jvt := j, mstatus := { s.csr.mstatus with fs := fs } } ∧
          (fs = s.csr.mstatus.fs ∨ s.csr.mstatus.fs ≠ 0 ∧ fs = 3) := by
    cases writes with
    | false => exact ⟨s, rfl, by simp, s.csr.jvt, s.csr.mstatus.fs, rfl, .inl rfl⟩
    | true =>
      refine ⟨s.csrPut r v, rfl, ?_, csrPut_user (writable_in_user hu access) (fun hr hoff => ?_) v⟩
      · obtain ⟨csr, fl, rm, he⟩ := s.csrPut_eq r v
        simp [he]
      · exact (State.csrAccess_some access).2 (.inr (.inr (.inr (.inl ⟨hr, hoff⟩))))
  rw [he] at done
  obtain ⟨-, rfl, hcount⟩ | ⟨h, -⟩ := csrRetire_next writes r (u.wx rd w)
  · have hr := writable_in_user hu access
    simp only [List.mem_cons, List.not_mem_nil, or_false] at hr
    rcases hr with rfl | rfl | rfl | rfl <;> cases hcount
  · rw [h] at done
    cases done
    refine ⟨by simpa using hframe, j, fs, ?_, hfs⟩
    rw [State.ext_count, State.retired_wx]
    simp only [State.wx_csr, State.retired, hcsr]

/-- What an instruction run in U-mode leaves of the CSRs, by the mode it ends in (10_state.md R52; 60_exceptions.md
R740). -/
theorem State.Ends.user (h : s.Ends i t) (hu : s.priv = .u) :
    (t.cfg = s.cfg ∧ t.lines = s.lines ∧ t.env = s.env) ∧
      ((t.priv = .u ∧ ∃ j fs,
          t.csr = { s.csr with minstret := s.retired, jvt := j, mstatus := { s.csr.mstatus with fs := fs } } ∧
            (fs = s.csr.mstatus.fs ∨ s.csr.mstatus.fs ≠ 0 ∧ fs = 3)) ∨
        (t.priv = .s ∧ ∃ epc cause tval sie spie spp,
          t.csr =
            { s.csr with
              sepc := epc, scause := cause, stval := tval
              mstatus := { s.csr.mstatus with sie := sie, spie := spie, spp := spp } }) ∨
        (t.priv = .m ∧ ∃ epc cause tval mie mpie mpp,
          t.csr =
            { s.csr with
              mepc := epc, mcause := cause, mtval := tval
              mstatus := { s.csr.mstatus with mie := mie, mpie := mpie, mpp := mpp } })) := by
  cases h with
  | @completes u target work step =>
    obtain ⟨hp, -, hl, he, hcsr, hfs⟩ := work.frame
    refine ⟨by simp [work.cfg, hl, he], .inl ⟨by simp [hp, hu], s.csr.jvt, u.csr.mstatus.fs, ?_, hfs⟩⟩
    rw [State.ext_count]
    simp only [State.retired]
    rw [hcsr]
  | @raises u e tval access fits =>
    obtain ⟨hcfg, -, -, hcsr, -, -, hl, he⟩ := access.frame
    refine ⟨by simp [hcfg, hl, he], .inr ?_⟩
    rw [← hcsr]
    obtain ⟨-, h⟩ | ⟨-, h⟩ := u.take_cases e tval <;> rw [h]
    · exact .inl ⟨rfl, _, _, _, _, _, _, rfl⟩
    · exact .inr ⟨rfl, _, _, _, _, _, _, rfl⟩
  | @csr a writes r op rd v _ kind access fits done =>
    obtain ⟨hframe, hcsr⟩ := csrRetire_user hu access done
    exact ⟨hframe, .inl ⟨(csrRetire_priv done).trans hu, hcsr⟩⟩
  | mret kind mode => rw [hu] at mode; cases mode
  | sret kind ext mode => rw [hu] at mode; rcases mode with mode | mode <;> cases mode

/-- From `c` to `d` the CSRs with storage change at most where an instruction run in U-mode may change them: the count,
`jvt`, `mstatus.FS`, and what a trap entry writes (60_exceptions.md R740). -/
def Csrs.UserReach (c d : Csrs) : Prop :=
  d =
    { c with
      minstret := d.minstret, jvt := d.jvt, sepc := d.sepc, scause := d.scause, stval := d.stval, mepc := d.mepc
      mcause := d.mcause, mtval := d.mtval
      mstatus :=
        { c.mstatus with
          fs := d.mstatus.fs, sie := d.mstatus.sie, spie := d.mstatus.spie, spp := d.mstatus.spp, mie := d.mstatus.mie
          mpie := d.mstatus.mpie, mpp := d.mstatus.mpp } }

/-- The CSRs outside that reach read as before. -/
theorem csrGet_of_userReach (hcfg : t.cfg = s.cfg) (h : s.csr.UserReach t.csr) :
    ∀ r ∈ [Csr.medeleg, .mideleg, .mie, .mtvec, .stvec, .mscratch, .sscratch, .satp, .mcounteren, .scounteren,
      .mcountinhibit, .mhartid, .misa], t.csrGet r = s.csrGet r := by
  unfold Csrs.UserReach at h
  simp only [List.forall_mem_cons, State.csrGet, hcfg]
  rw [h]
  simp

/-- Settles O33, by the mode the instruction ends in: an exception changes what trap entry writes, and any other end what
`State.Ends.user` says. -/
theorem userModeCannotChangePrivilegedState : Obligations.UserModeCannotChangePrivilegedState := by
  unfold Obligations.UserModeCannotChangePrivilegedState
  intro s i t hu h
  obtain ⟨hframe, hmode⟩ := (exec_ends h).user hu
  have hreach : s.csr.UserReach t.csr := by
    unfold Csrs.UserReach
    rcases hmode with ⟨-, j, fs, hcsr, -⟩ | ⟨-, _, _, _, _, _, _, hcsr⟩ | ⟨-, _, _, _, _, _, _, hcsr⟩ <;> rw [hcsr]
  refine ⟨hframe, csrGet_of_userReach hframe.1 hreach, ?_, ?_, ?_⟩
  · unfold Csrs.UserReach at hreach; rw [hreach]; simp
  · unfold Csrs.UserReach at hreach; rw [hreach]; simp
  · rcases hmode with ⟨hp, j, fs, hcsr, hfs⟩ | ⟨hp, _, _, _, _, _, _, hcsr⟩ | ⟨hp, _, _, _, _, _, _, hcsr⟩
    · rw [hp, hcsr]; simpa using hfs
    · rw [hp, hcsr]; simp
    · rw [hp, hcsr]; simp

end

end Sys2Proof.Machine
end

section
/-! Registers, register lists and reset: what `x0`, the fields of the compressed instructions and the state after reset
are (10_state.md R40, R42, R95; 48_zc.md R690, R697). -/

namespace Sys2Proof.Machine

open Sys2Proof

/-! ### Registers -/

theorem State.wx_zero (s : State) (v : Word) : s.wx 0 v = s := if_pos rfl

/-- Settles O45: a register read after a register write. -/
theorem registerZeroIsHardWired : Obligations.RegisterZeroIsHardWired := by
  unfold Obligations.RegisterZeroIsHardWired
  refine fun s v => ⟨s.rx_zero, s.wx_zero v, fun r hr => ?_⟩
  rw [State.rx_wx, if_pos ⟨rfl, hr⟩]

/-! ### Register lists -/

theorem listRegs_length {rlist : BitVec 4} (h : 4 ≤ rlist.toNat) : (listRegs rlist).length = listCount rlist := by
  revert rlist; decide

theorem listCount_le (rlist : BitVec 4) : listCount rlist ≤ 13 := by revert rlist; decide

/-- The stack adjustment as a number (48_zc.md R690). -/
theorem stackAdj_toNat (c : Config) (rlist : BitVec 4) (spimm : BitVec 2) :
    (stackAdj c rlist spimm).toNat = (listCount rlist * c.xlen.bytes + 15) / 16 * 16 + spimm.toNat * 16 := by
  have hn := listCount_le rlist
  have hs := spimm.isLt
  unfold stackAdj
  rw [BitVec.toNat_ofNat, Nat.mod_eq_of_lt]
  cases c.xlen <;> simp only [Xlen.bytes] <;> omega

/-- Settles O14: the lists are finite, and the adjustment is its number rounded up to a multiple of 16. -/
theorem stackListsAndRegisterFieldsAreLaidOut : Obligations.StackListsAndRegisterFieldsAreLaidOut := by
  unfold Obligations.StackListsAndRegisterFieldsAreLaidOut
  refine ⟨⟨by decide, by decide⟩, by decide, fun rlist h => ⟨rfl, listRegs_length h⟩, fun c spimm => ?_, fun c rlist spimm _ => ?_⟩
  · simp only [stackAdj_toNat]
    cases c.xlen <;> rfl
  · rw [stackAdj_toNat]
    omega

/-! ### Reset -/

/-- No interrupt is enabled after reset (10_state.md R95). -/
theorem pending_reset (c : Config) : (State.resetWith c).pending = 0 := BitVec.and_zero

/-- An interrupt that is taken is pending (60_exceptions.md R733). -/
theorem State.interrupt_none_of_pending {s : State} (h : s.pending = 0) : s.interrupt = none := by
  cases hi : s.interrupt with
  | none => rfl
  | some t =>
    have hbit : ∀ i, s.pending.getLsbD i = false := fun i => by rw [h]; exact BitVec.getLsbD_zero
    obtain ⟨i, -, ⟨hm, -⟩ | ⟨hs, -⟩⟩ := State.interrupt_cases hi
    · simp [State.takeableM, hbit i] at hm
    · simp [State.takeableS, hbit i] at hs

/-- Settles O38: the fields by definition, paging and the CLINT by their zeros, and no interrupt since none is enabled. -/
theorem resetLeavesTheStatedValues : Obligations.ResetLeavesTheStatedValues := by
  unfold Obligations.ResetLeavesTheStatedValues
  intro c s
  refine ⟨rfl, rfl, rfl, rfl, rfl, rfl, rfl, rfl, rfl, rfl, ?_, rfl, rfl, rfl, rfl, rfl, rfl, fun h => ?_, ?_⟩
  · show State.paged (State.resetWith c) = false
    unfold State.paged
    rw [show (State.resetWith c).csr.satp = 0 from rfl]
    split <;> decide
  · have hbit : ((List.replicate c.harts false)[h]?).getD false = false := by
      rw [List.getElem?_replicate]; split <;> rfl
    exact if_neg (by rw [show s.clint.msip = List.replicate c.harts false from rfl, hbit]; decide)
  · exact State.interrupt_none_of_pending (pending_reset c)

end Sys2Proof.Machine
end

section
/-! Pending interrupts and the counters (10_state.md R61, R80; 60_exceptions.md R731, R771). -/

namespace Sys2Proof.Machine

open Sys2Proof

/-- One bit of a word with one bit. -/
theorem getLsbD_bitAt (b : Bool) (i k : Nat) : (bitAt b i).getLsbD k = (decide (k = i ∧ k < 64) && b) := by
  unfold bitAt
  cases b
  · simp
  · by_cases h : k < 64 <;> by_cases hk : k = i <;> simp [h, hk, BitVec.getLsbD_shiftLeft, BitVec.getLsbD_one]
    all_goals omega

/-- The bits of `mip`, `SEIP` given (10_state.md R61). -/
theorem State.mipWith_getLsbD (s : State) (seip : Bool) (k : Nat) :
    (s.mipWith seip).getLsbD k =
      if k = 1 then s.cfg.extS && s.csr.ssip
      else if k = 3 then s.msip
      else if k = 5 then s.cfg.extS && s.csr.stip
      else if k = 7 then s.mtip
      else if k = 9 then s.cfg.extS && seip
      else if k = 11 then s.lines.meip
      else false := by
  simp only [State.mipWith, BitVec.getLsbD_or, getLsbD_bitAt]
  split_ifs <;> simp_all

/-- The timer input of the CLINT compares the registers of this hart as numbers (60_exceptions.md R771). -/
theorem State.mtip_clint {s : State} (h : s.cfg.platform = .clint) :
    s.mtip = decide ((s.clint.get (.mtimecmp s.cfg.hartId .both)).toNat ≤ (s.clint.get (.mtime .both)).toNat) := by
  unfold State.mtip; rw [h]; rfl

/-- The software input of the CLINT is the register of this hart (60_exceptions.md R772). -/
theorem State.msip_clint {s : State} (h : s.cfg.platform = .clint) :
    s.msip = (s.clint.get (.msip s.cfg.hartId) == 1) := by
  unfold State.msip Clint.get
  rw [h]
  simp only
  cases (s.clint.msip[s.cfg.hartId]?).getD false <;> rfl

theorem State.mtip_none {s : State} (h : s.cfg.platform = .none) : s.mtip = s.lines.mtip := by
  unfold State.mtip; rw [h]

theorem State.msip_none {s : State} (h : s.cfg.platform = .none) : s.msip = s.lines.msip := by
  unfold State.msip; rw [h]

/-! ### The counters -/

/-- By how much `mcycle` advances after a step (10_state.md R80). -/
def State.cycleStep (s : State) : Word :=
  if s.csr.mcountinhibit.getLsbD 0 then 0
  else if Config.mcycleAdvance s.draws = 0 then 1 else Config.mcycleAdvance s.draws

theorem State.cycleStep_inhibited (s : State) :
    if s.csr.mcountinhibit.getLsbD 0 = true then s.cycleStep = 0 else s.cycleStep ≠ 0 := by
  unfold State.cycleStep
  split_ifs with hcy h0
  · rfl
  · decide
  · exact h0

theorem State.advanceCycle_eq (s : State) :
    s.advanceCycle = { s with csr := { s.csr with mcycle := s.csr.mcycle + s.cycleStep } } := by
  unfold State.advanceCycle State.cycleStep
  split
  · simp
  · rfl

/-- What a step of an awake hart ends with (10_state.md R80, 60_exceptions.md R771). -/
theorem State.tick_eq (s : State) :
    s.tick =
      { s with
        csr := { s.csr with mcycle := s.csr.mcycle + s.cycleStep }
        clint := { s.clint with mtime := s.clint.mtime + Config.mtimeAdvance s.draws }
        draws := s.draws + 1 } := by
  unfold State.tick; rw [State.advanceCycle_eq]; rfl

theorem partGet_lo_toNat (w : Word) : (partGet w .lo).toNat = w.toNat % 2 ^ 32 := by
  simp only [partGet, BitVec.toNat_setWidth, BitVec.extractLsb'_toNat, Nat.shiftRight_zero]
  omega

theorem partGet_hi_toNat (w : Word) : (partGet w .hi).toNat = w.toNat / 2 ^ 32 := by
  have := w.isLt
  simp only [partGet, BitVec.toNat_setWidth, BitVec.extractLsb'_toNat, Nat.shiftRight_eq_div_pow]
  omega

/-- Settles O60: `mip` bit by bit, a tick as two sums, and the counter CSRs as parts of the counters. -/
theorem interruptsPendAndCountersAdvance : Obligations.InterruptsPendAndCountersAdvance := by
  unfold Obligations.InterruptsPendAndCountersAdvance
  refine ⟨fun s => ?_, fun s => ⟨⟨s.cycleStep, _, s.cycleStep_inhibited, s.tick_eq⟩, _, rfl⟩, fun s n => ?_⟩
  · intro mtip msip
    have hmtip : mtip = s.mtip := by
      cases hp : s.cfg.platform with
      | clint => rw [State.mtip_clint hp]; simp only [mtip, hp]
      | none => rw [State.mtip_none hp]; simp only [mtip, hp]
    have hmsip : msip = s.msip := by
      cases hp : s.cfg.platform with
      | clint => rw [State.msip_clint hp]; simp only [msip, hp]
      | none => rw [State.msip_none hp]; simp only [msip, hp]
    rw [hmtip, hmsip]
    exact ⟨s.mipWith_getLsbD _, fun k => BitVec.getLsbD_and, rfl⟩
  · refine ⟨rfl, rfl, fun hx => ?_, fun hx => ?_, ?_⟩
    · have hlow : lowPart s.cfg.xlen = .both := by rw [hx]; rfl
      exact ⟨congrArg (partGet _) hlow, congrArg (partGet _) hlow, congrArg (partGet _) hlow⟩
    · have hlow : ∀ w, (partGet w (lowPart s.cfg.xlen)).toNat = w.toNat % 2 ^ 32 := by
        rw [hx]; exact partGet_lo_toNat
      exact ⟨hlow _, partGet_hi_toNat _, hlow _, partGet_hi_toNat _, hlow _, partGet_hi_toNat _, rfl, rfl⟩
    · intro r hr
      simp only [List.mem_cons, List.not_mem_nil, or_false] at hr
      rcases hr with rfl | rfl | rfl | rfl | rfl <;> exact ⟨rfl, fun _ => rfl⟩

end Sys2Proof.Machine
end

section
/-! Narrow floating-point values are held boxed (10_state.md R48). -/

namespace Sys2Proof

/-- The bits of a value held in a floating-point register. -/
theorem Config.fnorm_getLsbD (c : Config) (w : Word) (k : Nat) :
    (c.fnorm w).getLsbD k = (decide (k < if c.extD then 64 else 32) && w.getLsbD k) := by
  unfold Config.fnorm
  split
  · by_cases h : k < 64
    · simp [h]
    · simp [h, BitVec.getLsbD_of_ge w k (by omega)]
  · rw [BitVec.getLsbD_setWidth, BitVec.getLsbD_setWidth]
    by_cases h : k < 32
    · simp [h, show k < 64 by omega]
    · simp [h]

namespace Machine

/-- The bits of a boxed value: ones above the format. -/
theorem box_getLsbD (f : Fmt) (v : Word) (k : Nat) (hk : k < 64) :
    (box f v).getLsbD k = (v.getLsbD k || decide (f.width ≤ k)) := by
  unfold box
  rw [BitVec.getLsbD_or, BitVec.getLsbD_shiftLeft, BitVec.getLsbD_allOnes]
  by_cases h : k < f.width
  · simp [h, hk]
  · simp [h, hk, show k - f.width < 64 by omega, show f.width ≤ k by omega]

/-- The low bits of a register, the value in its box. -/
theorem unbox_getLsbD (f : Fmt) (w : Word) (k : Nat) (hk : k < 64) :
    (w &&& ~~~(BitVec.allOnes 64 <<< f.width)).getLsbD k = (w.getLsbD k && decide (k < f.width)) := by
  rw [BitVec.getLsbD_and, BitVec.getLsbD_not, BitVec.getLsbD_shiftLeft, BitVec.getLsbD_allOnes]
  by_cases h : k < f.width
  · simp [h, hk]
  · simp [h, hk, show k - f.width < 64 by omega]

/-- A value of a format has no bit above it. -/
theorem getLsbD_of_lt_width {f : Fmt} {v : Word} (hv : v.toNat < 2 ^ f.width) {k : Nat} (hk : f.width ≤ k) :
    v.getLsbD k = false :=
  Nat.testBit_lt_two_pow (hv.trans_le (Nat.pow_le_pow_right (by decide) hk))

/-- The register is wide enough for the format. -/
theorem width_le_held {c : Config} {f : Fmt} (h : f = .d → c.extD = true) : f.width ≤ if c.extD then 64 else 32 := by
  cases f with
  | h => split <;> decide
  | s => split <;> decide
  | d => rw [if_pos (h rfl)]; decide

theorem State.fv_of_boxed {s : State} {f : Fmt} {r : Reg}
    (h : ∀ k, f.width ≤ k → k < (if s.cfg.extD then 64 else 32) → (s.rf r).getLsbD k = true) :
    s.fv f r = s.rf r &&& ~~~(BitVec.allOnes 64 <<< f.width) := by
  refine if_pos (BitVec.eq_of_getLsbD_eq fun k hk => ?_)
  rw [Config.fnorm_getLsbD, Config.fnorm_getLsbD, box_getLsbD f _ k hk]
  by_cases hheld : k < if s.cfg.extD then 64 else 32
  · by_cases hw : f.width ≤ k
    · simp [h k hw hheld, hw]
    · simp [hw]
  · simp [hheld]

/-- Settles O54, bit by bit: the bits above the format are ones exactly when the register reads as its boxed self. -/
theorem narrowValuesAreBoxed : Obligations.NarrowValuesAreBoxed := by
  unfold Obligations.NarrowValuesAreBoxed
  intro s f r v hd hv
  have hle := width_le_held hd
  refine ⟨fun hr => ?_, fun ⟨k, hk, hheld, hzero⟩ => if_neg fun heq => ?_⟩
  · have hbit : ∀ k, k < 64 →
        (s.rf r).getLsbD k = (decide (k < if s.cfg.extD then 64 else 32) && (v.getLsbD k || decide (f.width ≤ k))) := by
      intro k hk
      rw [hr, Config.fnorm_getLsbD, box_getLsbD f v k hk]
    have h64 : (if s.cfg.extD then 64 else 32) ≤ 64 := by split <;> decide
    rw [State.fv_of_boxed fun k hk hheld => by rw [hbit k (by omega)]; simp [hk, hheld]]
    refine BitVec.eq_of_getLsbD_eq fun k hk => ?_
    rw [unbox_getLsbD f _ k hk, hbit k hk]
    by_cases hw : k < f.width
    · simp [hw, show k < if s.cfg.extD then 64 else 32 by omega]
    · have hv0 : v.getLsbD k = false := getLsbD_of_lt_width hv (by omega)
      simp [hw, hv0]
  · have hk64 : k < 64 := hheld.trans_le (by split <;> decide)
    have hbit := congrArg (fun w => w.getLsbD k) heq
    simp only [Config.fnorm_getLsbD, box_getLsbD f _ k hk64, hzero] at hbit
    simp [hheld, hk] at hbit

end Machine

end Sys2Proof
end

section
/-! What the CSRs read as after a write, and what the write leaves (10_state.md R49, R54 to R73, R80). -/

namespace Sys2Proof.Machine

open Sys2Proof

/-! ### The words of the views, bit by bit -/

/-- The fields of `mstatus` at their bits (10_state.md R54). -/
def mstatusBit (c : Config) (ms : MStatus) (k : Nat) : Bool :=
  if k = 1 then ms.sie
  else if k = 3 then ms.mie
  else if k = 5 then ms.spie
  else if k = 7 then ms.mpie
  else if k = 8 then ms.spp
  else if k = 11 ∨ k = 12 then ms.mpp.code.getLsbD (k - 11)
  else if k = 13 ∨ k = 14 then ms.fs.getLsbD (k - 13)
  else if k = 17 then ms.mprv
  else if k = 18 then ms.sum
  else if k = 19 then ms.mxr
  else if k = 20 then ms.tvm
  else if k = 21 then ms.tw
  else if k = 22 then ms.tsr
  else if k = c.xlen.bits - 1 then ms.fs == 3#2
  else if k = 33 then c.xlen == .rv64 && c.extU
  else if k = 35 then c.xlen == .rv64 && c.extS
  else false

/-- A field of two bits at its place. -/
theorem getLsbD_field2 (b : BitVec 2) (i k : Nat) (hi : i + 2 ≤ 64) :
    (b.setWidth 64 <<< i).getLsbD k = (decide (k = i ∨ k = i + 1) && b.getLsbD (k - i)) := by
  simp only [BitVec.getLsbD_shiftLeft, BitVec.getLsbD_setWidth]
  by_cases hk : k = i ∨ k = i + 1
  · simp [hk, show k < 64 by omega, show ¬ k < i by omega]
    intro _; omega
  · by_cases hlt : k < i
    · simp [hlt, hk]
    · simp [hk, BitVec.getLsbD_of_ge b (k - i) (by omega)]

theorem sd_bit {x : Xlen} {sd : Nat} (h : x.bits - 1 = sd) : sd = 31 ∨ sd = 63 := by
  cases x
  · exact .inl h.symm
  · exact .inr h.symm

/-- The bits of `mstatus` that may be set. -/
def mstatusBits (c : Config) : List Nat :=
  [1, 3, 5, 7, 8, 11, 12, 13, 14, 17, 18, 19, 20, 21, 22, c.xlen.bits - 1, 33, 35]

theorem mstatusBit_of_notMem {c : Config} {k : Nat} (h : k ∉ mstatusBits c) (ms : MStatus) : mstatusBit c ms k = false := by
  simp only [mstatusBits, List.mem_cons, List.not_mem_nil, or_false, not_or] at h
  simp only [mstatusBit, h, if_false, or_self]

theorem State.mstatusWord_getLsbD (s : State) (k : Nat) : s.mstatusWord.getLsbD k = mstatusBit s.cfg s.csr.mstatus k := by
  simp only [State.mstatusWord, BitVec.getLsbD_or, getLsbD_bitAt, getLsbD_field2, Nat.reduceAdd, Nat.reduceLeDiff]
  by_cases hk : k ∈ mstatusBits s.cfg
  · simp only [mstatusBits, List.mem_cons, List.not_mem_nil, or_false] at hk
    unfold mstatusBit
    generalize hsd : s.cfg.xlen.bits - 1 = sd at hk ⊢
    obtain rfl | rfl := sd_bit hsd <;>
      rcases hk with rfl | rfl | rfl | rfl | rfl | rfl | rfl | rfl | rfl | rfl | rfl | rfl | rfl | rfl | rfl | rfl | rfl | rfl <;>
      simp
  · rw [mstatusBit_of_notMem hk]
    simp only [mstatusBits, List.mem_cons, List.not_mem_nil, or_false, not_or] at hk
    simp [hk]

theorem mppOf_code (c : Config) (old : Priv) (v : BitVec 2) :
    (mppOf c old v).code = if v = 3#2 ∨ v = 1#2 ∧ c.extS = true ∨ v = 0#2 ∧ c.extU = true then v else old.code := by
  unfold mppOf
  by_cases h3 : v = 3#2
  · simp [h3, Priv.code]
  · by_cases h1 : v = 1#2 ∧ c.extS = true
    · simp [h1, Priv.code]
    · by_cases h0 : v = 0#2 ∧ c.extU = true
      · simp [h0, Priv.code]
      · rw [if_neg h3, if_neg h1, if_neg h0, if_neg (not_or.2 ⟨h3, not_or.2 ⟨h1, h0⟩⟩)]

theorem getLsbD_ite {n : Nat} (p : Prop) [Decidable p] (a b : BitVec n) (k : Nat) :
    (if p then a else b).getLsbD k = if p then a.getLsbD k else b.getLsbD k :=
  apply_ite (fun w : BitVec n => w.getLsbD k) p a b

/-- The summary of a field that an extension gives. -/
theorem dirty_ifExt (b : Bool) (v : BitVec 2) :
    ((if b = true then v else 0) == 3#2) = (b && v.getLsbD 0 && v.getLsbD 1) := by
  revert b v; decide

/-- `mstatus` after a write (10_state.md R54). -/
theorem mstatusBit_mstatusOf (c : Config) (ms : MStatus) (v : Word) (k : Nat) :
    mstatusBit c (mstatusOf c ms v) k =
      if k = 3 ∨ k = 7 then v.getLsbD k
      else if k ∈ [1, 5, 8, 18, 19, 20, 22] then c.extS && v.getLsbD k
      else if k = 17 ∨ k = 21 then c.extU && v.getLsbD k
      else if k = 13 ∨ k = 14 then c.extF && v.getLsbD k
      else if k = 11 ∨ k = 12 then
        (if v.extractLsb' 11 2 = 3 ∨ v.extractLsb' 11 2 = 1 ∧ c.extS = true ∨ v.extractLsb' 11 2 = 0 ∧ c.extU = true then
          v.getLsbD k
        else mstatusBit c ms k)
      else if k = c.xlen.bits - 1 then c.extF && v.getLsbD 13 && v.getLsbD 14
      else if k = 33 then decide (c.xlen = .rv64) && c.extU
      else if k = 35 then decide (c.xlen = .rv64) && c.extS
      else false := by
  by_cases hk : k ∈ mstatusBits c
  · simp only [mstatusBits, List.mem_cons, List.not_mem_nil, or_false] at hk
    simp only [mstatusBit, mstatusOf, mppOf_code, dirty_ifExt, getLsbD_ite, BitVec.getLsbD_extractLsb']
    generalize hsd : c.xlen.bits - 1 = sd at hk ⊢
    obtain rfl | rfl := sd_bit hsd <;>
      rcases hk with rfl | rfl | rfl | rfl | rfl | rfl | rfl | rfl | rfl | rfl | rfl | rfl | rfl | rfl | rfl | rfl | rfl | rfl <;>
      simp [Bool.and_assoc, Bool.beq_eq_decide_eq]
  · rw [mstatusBit_of_notMem hk]
    simp only [mstatusBits, List.mem_cons, List.not_mem_nil, or_false, not_or] at hk
    simp [hk]

/-- `mstatus` after a write to `sstatus` (10_state.md R56). -/
theorem mstatusBit_sstatusOf (c : Config) (ms : MStatus) (v : Word) (k : Nat) :
    mstatusBit c (sstatusOf c ms v) k =
      if k ∈ [1, 5, 8, 18, 19] then c.extS && v.getLsbD k
      else if k = 13 ∨ k = 14 then c.extF && v.getLsbD k
      else if k = c.xlen.bits - 1 then c.extF && v.getLsbD 13 && v.getLsbD 14
      else mstatusBit c ms k := by
  by_cases hk : k ∈ mstatusBits c
  · simp only [mstatusBits, List.mem_cons, List.not_mem_nil, or_false] at hk
    simp only [mstatusBit, sstatusOf, mstatusOf, dirty_ifExt, getLsbD_ite, BitVec.getLsbD_extractLsb']
    generalize hsd : c.xlen.bits - 1 = sd at hk ⊢
    obtain rfl | rfl := sd_bit hsd <;>
      rcases hk with rfl | rfl | rfl | rfl | rfl | rfl | rfl | rfl | rfl | rfl | rfl | rfl | rfl | rfl | rfl | rfl | rfl | rfl <;>
      simp [Bool.and_assoc]
  · rw [mstatusBit_of_notMem hk, mstatusBit_of_notMem hk]
    simp only [mstatusBits, List.mem_cons, List.not_mem_nil, or_false, not_or] at hk
    simp [hk]

/-- The bits `sstatus` shows (10_state.md R56). -/
theorem sstatusMask_getLsbD (x : Xlen) (k : Nat) :
    (sstatusMask x).getLsbD k =
      decide (k ∈ [1, 5, 6, 8, 9, 10, 13, 14, 15, 16, 18, 19, x.bits - 1] ∨ x = .rv64 ∧ (k = 32 ∨ k = 33)) := by
  by_cases hk : k < 64
  · revert k; cases x <;> decide
  · rw [BitVec.getLsbD_of_ge _ _ (by omega), eq_comm, decide_eq_false_iff_not]
    cases x <;> simp only [List.mem_cons, Xlen.bits, List.not_mem_nil, or_false] <;> omega

/-! ### The words the other registers keep -/

/-- Cutting a word to its low bits is masking it. -/
theorem setWidth_setWidth_eq_and (v : Word) (n : Nat) :
    (v.setWidth n).setWidth 64 = v &&& BitVec.ofNat 64 (2 ^ n - 1) := by
  apply BitVec.eq_of_getLsbD_eq
  intro k hk
  simp only [BitVec.getLsbD_setWidth, BitVec.getLsbD_and, BitVec.getLsbD_ofNat, Nat.testBit_two_pow_sub_one, hk,
    decide_true, Bool.true_and]
  exact Bool.and_comm _ _

theorem extractLsb'_append_setWidth (v : Word) : v.extractLsb' 5 3 ++ v.setWidth 5 = v.setWidth 8 := by
  apply BitVec.eq_of_getLsbD_eq
  intro k hk
  simp only [BitVec.getLsbD_append, BitVec.getLsbD_extractLsb', BitVec.getLsbD_setWidth]
  split_ifs with h
  · simp [h, hk]
  · rw [show 5 + (k - 5) = k by omega]; simp [hk, show k - 5 < 3 by omega]

theorem extractLsb'_eq_ofNat_iff (v : Word) (start n m : Nat) :
    v.extractLsb' start n = BitVec.ofNat n m ↔ v.toNat / 2 ^ start % 2 ^ n = m % 2 ^ n := by
  rw [← BitVec.toNat_inj, BitVec.extractLsb'_toNat, BitVec.toNat_ofNat, Nat.shiftRight_eq_div_pow]

theorem tvecOf_eq (c : Config) (old v : Word) :
    tvecOf c old v = if v.toNat % 4 = 0 ∨ v.toNat % 4 = 1 ∧ c.mtvecVectored = true then v else old := by
  simp only [tvecOf, extractLsb'_eq_ofNat_iff, Nat.pow_zero, Nat.div_one, Nat.reducePow, Nat.reduceMod]

theorem epcMask_clear (c : Config) (v : Word) :
    epcMask c (v &&& ~~~1#64) = if c.extC = true then v &&& ~~~1#64 else v &&& ~~~3#64 := by
  unfold epcMask
  split
  · rw [BitVec.and_assoc, BitVec.and_self]
  · rw [BitVec.and_assoc]; rfl

theorem partSet_lo_toNat (w v : Word) : (partSet w v .lo).toNat = w.toNat / 2 ^ 32 * 2 ^ 32 + v.toNat % 2 ^ 32 := by
  have hw := w.isLt
  refine (toNat_append_eq (w.extractLsb' 32 32) (v.extractLsb' 0 32)).trans ?_
  simp only [BitVec.extractLsb'_toNat, Nat.shiftRight_eq_div_pow]
  omega

theorem partSet_hi_toNat (w v : Word) : (partSet w v .hi).toNat = v.toNat % 2 ^ 32 * 2 ^ 32 + w.toNat % 2 ^ 32 := by
  refine (toNat_append_eq (v.extractLsb' 0 32) (w.extractLsb' 0 32)).trans ?_
  simp only [BitVec.extractLsb'_toNat, Nat.shiftRight_eq_div_pow]
  omega

theorem partGet_hi_partSet_lo (w v : Word) : partGet (partSet w v .lo) .hi = partGet w .hi := by
  apply BitVec.eq_of_toNat_eq
  rw [partGet_hi_toNat, partGet_hi_toNat, partSet_lo_toNat]
  omega

theorem partGet_lo_partSet_hi (w v : Word) : partGet (partSet w v .hi) .lo = partGet w .lo := by
  apply BitVec.eq_of_toNat_eq
  rw [partGet_lo_toNat, partGet_lo_toNat, partSet_hi_toNat]
  omega

theorem partGet_hi_partSet_hi {v : Word} (hv : v.toNat < 2 ^ 32) (w : Word) : partGet (partSet w v .hi) .hi = v := by
  apply BitVec.eq_of_toNat_eq
  rw [partGet_hi_toNat, partSet_hi_toNat]
  omega

theorem partGet_lo_partSet_lo {v : Word} (hv : v.toNat < 2 ^ 32) (w : Word) : partGet (partSet w v .lo) .lo = v := by
  apply BitVec.eq_of_toNat_eq
  rw [partGet_lo_toNat, partSet_lo_toNat]
  omega

/-- A counter written through its CSR without `h` reads back (10_state.md R80). -/
theorem partGet_partSet_lowPart {c : Config} {v : Word} (hv : c.norm v = v) (w : Word) :
    partGet (partSet w v (lowPart c.xlen)) (lowPart c.xlen) = v := by
  rw [Config.norm_eq_self_iff] at hv
  cases hx : c.xlen with
  | rv32 => rw [hx] at hv; exact partGet_lo_partSet_lo hv w
  | rv64 => rfl

/-- A field cut to its low bits. -/
theorem toNat_and_lowMask {n : Nat} (x : BitVec n) (l : Nat) : (x &&& BitVec.ofNat n (2 ^ l - 1)).toNat = x.toNat % 2 ^ l := by
  apply Nat.eq_of_testBit_eq
  intro k
  rw [BitVec.toNat_and, BitVec.toNat_ofNat]
  simp only [Nat.testBit_and, Nat.testBit_mod_two_pow, Nat.testBit_two_pow_sub_one]
  by_cases hk : k < n
  · simp [hk, Bool.and_comm]
  · simp [BitVec.testBit_toNat, BitVec.getLsbD_of_ge x k (by omega)]

/-! ### satp -/

/-- The fields `satp` takes, as numbers, on XLEN = 32 (10_state.md R69). -/
theorem satpOf_rv32 {c : Config} (hx : c.xlen = .rv32) {v : Word} (hv : v.toNat < 2 ^ 32) (old : Word) :
    if v.toNat / 2 ^ 31 = 0 ∨ c.paging = true ∧ v.toNat / 2 ^ 31 = 1 then
      (satpOf c old v).toNat / 2 ^ 31 = v.toNat / 2 ^ 31 ∧ (satpOf c old v).toNat % 2 ^ 22 = v.toNat % 2 ^ 22 ∧
        (satpOf c old v).toNat / 2 ^ 22 % 2 ^ 9 = v.toNat / 2 ^ 22 % 2 ^ 9 % 2 ^ c.asidLen
    else satpOf c old v = old := by
  have hcond : v.extractLsb' 31 1 = 0#1 ∨ c.paging = true ↔
      v.toNat / 2 ^ 31 = 0 ∨ c.paging = true ∧ v.toNat / 2 ^ 31 = 1 := by
    rw [extractLsb'_eq_ofNat_iff]
    cases c.paging <;> simp <;> omega
  unfold satpOf
  simp only [hx, ← hcond]
  split
  · have hasid := Nat.mod_le (v.toNat / 2 ^ 22 % 2 ^ 9) (2 ^ c.asidLen)
    rw [BitVec.toNat_setWidth, toNat_append_eq, toNat_append_eq, toNat_and_lowMask]
    simp only [BitVec.extractLsb'_toNat, Nat.shiftRight_eq_div_pow]
    generalize v.toNat / 2 ^ 22 % 2 ^ 9 % 2 ^ c.asidLen = asid at hasid ⊢
    omega
  · rfl

/-- The fields `satp` takes, as numbers, on XLEN = 64 (10_state.md R69). -/
theorem satpOf_rv64 {c : Config} (hx : c.xlen = .rv64) (v old : Word) :
    if v.toNat / 2 ^ 60 = 0 ∨ c.paging = true ∧ v.toNat / 2 ^ 60 = 8 then
      (satpOf c old v).toNat / 2 ^ 60 = v.toNat / 2 ^ 60 ∧ (satpOf c old v).toNat % 2 ^ 44 = v.toNat % 2 ^ 44 ∧
        (satpOf c old v).toNat / 2 ^ 44 % 2 ^ 16 = v.toNat / 2 ^ 44 % 2 ^ 16 % 2 ^ c.asidLen
    else satpOf c old v = old := by
  have hv := v.isLt
  have hcond : v.extractLsb' 60 4 = 0#4 ∨ v.extractLsb' 60 4 = 8#4 ∧ c.paging = true ↔
      v.toNat / 2 ^ 60 = 0 ∨ c.paging = true ∧ v.toNat / 2 ^ 60 = 8 := by
    rw [extractLsb'_eq_ofNat_iff, extractLsb'_eq_ofNat_iff]
    cases c.paging <;> simp <;> omega
  unfold satpOf
  simp only [hx, ← hcond]
  split
  · have hasid := Nat.mod_le (v.toNat / 2 ^ 44 % 2 ^ 16) (2 ^ c.asidLen)
    have happ := toNat_append_eq
      (v.extractLsb' 60 4 ++ (v.extractLsb' 44 16 &&& BitVec.ofNat 16 (2 ^ c.asidLen - 1))) (v.extractLsb' 0 44)
    rw [toNat_append_eq (v.extractLsb' 60 4), toNat_and_lowMask] at happ
    simp only [BitVec.extractLsb'_toNat, Nat.shiftRight_eq_div_pow] at happ
    generalize v.toNat / 2 ^ 44 % 2 ^ 16 % 2 ^ c.asidLen = asid at hasid happ
    omega
  · rfl

/-- A write to `satp` (10_state.md R69). -/
theorem State.csrPut_satp_of_eq {s : State} {v : Word} (h : satpOf s.cfg s.csr.satp v = s.csr.satp) : s.csrPut .satp v = s := by
  simp only [State.csrPut, h]

/-! ### misa -/

/-- The bits of `misa` (10_state.md R57). -/
theorem misaWord_getLsbD (c : Config) (k : Nat) :
    (misaWord c).getLsbD k =
      if k = 0 then c.extA
      else if k = 1 then c.extZba && c.extZbb && c.extZbs
      else if k = 2 then c.extC
      else if k = 3 then c.extD
      else if k = 4 then c.rv32e
      else if k = 5 then c.extF
      else if k = 8 then !c.rv32e
      else if k = 12 then c.extM
      else if k = 18 then c.extS
      else if k = 20 then c.extU
      else match c.xlen with
        | .rv32 => decide (k = 30)
        | .rv64 => decide (k = 63) := by
  have h30 : (1#64 <<< 30) = bitAt true 30 := rfl
  have h63 : (2#64 <<< 62) = bitAt true 63 := by decide
  simp only [misaWord, h30, h63]
  by_cases hk : k ∈ [0, 1, 2, 3, 4, 5, 8, 12, 18, 20]
  · simp only [List.mem_cons, List.not_mem_nil, or_false] at hk
    cases c.xlen <;> simp only [BitVec.getLsbD_or, getLsbD_bitAt] <;>
      rcases hk with rfl | rfl | rfl | rfl | rfl | rfl | rfl | rfl | rfl | rfl <;> simp
  · simp only [List.mem_cons, List.not_mem_nil, or_false, not_or] at hk
    cases c.xlen <;> simp only [BitVec.getLsbD_or, getLsbD_bitAt] <;> simp [hk]
    all_goals omega

/-! ### mip and its views -/

section

variable (s : State) (r : Csr) (v : Word)

theorem State.csrPut_cfg : (s.csrPut r v).cfg = s.cfg := by cases r <;> rfl

theorem State.csrPut_lines : (s.csrPut r v).lines = s.lines := by cases r <;> rfl

theorem State.csrPut_msip : (s.csrPut r v).msip = s.msip := by cases r <;> rfl

theorem State.csrPut_mtip : (s.csrPut r v).mtip = s.mtip := by cases r <;> rfl

/-- `mip` after a write of a CSR (10_state.md R61). -/
theorem State.csrPut_mip (k : Nat) :
    ((s.csrPut r v).csrGet .mip).getLsbD k =
      if k = 1 then s.cfg.extS && (s.csrPut r v).csr.ssip
      else if k = 3 then s.msip
      else if k = 5 then s.cfg.extS && (s.csrPut r v).csr.stip
      else if k = 7 then s.mtip
      else if k = 9 then s.cfg.extS && ((s.csrPut r v).csr.seip || s.lines.seip)
      else if k = 11 then s.lines.meip
      else false := by
  refine (State.mipWith_getLsbD _ _ k).trans ?_
  rw [s.csrPut_cfg, s.csrPut_lines, s.csrPut_msip, s.csrPut_mtip]

/-- A write to `mip` (10_state.md R61). -/
theorem State.csrPut_mip_mip (k : Nat) :
    ((s.csrPut .mip v).csrGet .mip).getLsbD k =
      if k = 1 ∨ k = 5 then s.cfg.extS && v.getLsbD k
      else if k = 9 then s.cfg.extS && (v.getLsbD 9 || s.lines.seip)
      else if k = 3 ∨ k = 7 ∨ k = 11 then (s.csrGet .mip).getLsbD k
      else false := by
  have hmip : (s.csrGet .mip).getLsbD k = _ := State.mipWith_getLsbD s _ k
  rw [s.csrPut_mip, hmip]
  simp only [State.csrPut]
  cases s.cfg.extS <;> grind

/-- A write to `sip` (10_state.md R68). -/
theorem State.csrPut_sip_mip (k : Nat) :
    ((s.csrPut .sip v).csrGet .mip).getLsbD k =
      if k = 1 ∧ (s.csrGet .mideleg).getLsbD 1 = true then s.cfg.extS && v.getLsbD 1 else (s.csrGet .mip).getLsbD k := by
  have hmip : (s.csrGet .mip).getLsbD k = _ := State.mipWith_getLsbD s _ k
  have hdeleg : s.csrGet .mideleg = s.csr.mideleg := rfl
  rw [s.csrPut_mip, hmip, hdeleg]
  simp only [State.csrPut]
  grind

/-- A write to `sie` (10_state.md R68). -/
theorem State.csrPut_sie_mie (k : Nat) :
    ((s.csrPut .sie v).csrGet .mie).getLsbD k =
      if (s.csrGet .mideleg).getLsbD k then v.getLsbD k && (if s.cfg.extS then 0xAAA#64 else 0x888#64).getLsbD k
      else (s.csrGet .mie).getLsbD k := by
  show ((s.csr.mie &&& ~~~s.csr.mideleg) ||| (v &&& s.csr.mideleg &&& mieMask s.cfg)).getLsbD k =
    if s.csr.mideleg.getLsbD k then v.getLsbD k && (mieMask s.cfg).getLsbD k else s.csr.mie.getLsbD k
  by_cases hk : k < 64
  · simp only [BitVec.getLsbD_or, BitVec.getLsbD_and, BitVec.getLsbD_not, hk, decide_true, Bool.true_and]
    cases s.csr.mideleg.getLsbD k <;> simp
  · simp [BitVec.getLsbD_of_ge _ k (Nat.le_of_not_lt hk)]

end

/-! ### The obligation -/

/-- Settles O26: each register is read through the field rules its write went through. -/
theorem csrsKeepLegalValues : Obligations.CsrsKeepLegalValues := by
  unfold Obligations.CsrsKeepLegalValues
  refine ⟨fun s v hv => ⟨?_, ?_, ?_, rfl, rfl, rfl, ?_, rfl, rfl, ?_, ?_, ?_, ?_, ?_⟩,
    fun s v hv => ⟨?_, ?_, ?_, ?_, ?_, ?_, ?_, ?_⟩, fun s => ⟨?_, ?_, misaWord_getLsbD _⟩, fun s r v => ?_, fun s v => ?_⟩
  · intro r hr
    simp only [List.mem_cons, List.not_mem_nil, or_false] at hr
    rcases hr with rfl | rfl | rfl | rfl | rfl | rfl <;> rfl
  · intro r hr
    simp only [List.mem_cons, List.not_mem_nil, or_false] at hr
    rcases hr with rfl | rfl <;> exact epcMask_clear s.cfg v
  · intro r hr
    simp only [List.mem_cons, List.not_mem_nil, or_false] at hr
    rcases hr with rfl | rfl <;> exact tvecOf_eq _ _ _
  · intro r hr
    simp only [List.mem_cons, List.not_mem_nil, or_false] at hr
    rcases hr with rfl | rfl <;> exact setWidth_setWidth_eq_and v 32
  · exact setWidth_setWidth_eq_and v 5
  · exact setWidth_setWidth_eq_and v 3
  · exact (congrArg _ (extractLsb'_append_setWidth v)).trans (setWidth_setWidth_eq_and v 8)
  · intro r hr
    simp only [List.mem_cons, List.not_mem_nil, or_false] at hr
    rcases hr with rfl | rfl <;> exact partGet_partSet_lowPart hv _
  · intro r hr
    simp only [List.mem_cons, List.not_mem_nil, or_false] at hr
    rcases hr with rfl | rfl | rfl | rfl | rfl | rfl | rfl | rfl | rfl | rfl <;> rfl
  · intro mode asid new
    have hw := (Config.norm_eq_self_iff _ _).1 hv
    obtain hx | hx : s.cfg.xlen = .rv32 ∨ s.cfg.xlen = .rv64 := by cases s.cfg.xlen <;> simp
    · rw [hx] at hw
      have hmode : ∀ w, mode w = w.toNat / 2 ^ 31 := fun w => by simp only [mode, hx]
      have hasid : ∀ w, asid w = w.toNat / 2 ^ 22 % 2 ^ 9 := fun w => by simp only [asid, hx]
      have h := satpOf_rv32 hx hw s.csr.satp
      simp only [hmode, hasid, hx, if_true]
      split_ifs at h ⊢
      · exact h
      · exact State.csrPut_satp_of_eq h
    · have hmode : ∀ w, mode w = w.toNat / 2 ^ 60 := fun w => by simp only [mode, hx]
      have hasid : ∀ w, asid w = w.toNat / 2 ^ 44 % 2 ^ 16 := fun w => by simp only [asid, hx]
      have h := satpOf_rv64 hx v s.csr.satp
      simp only [hmode, hasid, hx, reduceCtorEq, if_false]
      split_ifs at h ⊢
      · exact h
      · exact State.csrPut_satp_of_eq h
  · exact s.csrPut_mip_mip v
  · exact (State.mipWith_getLsbD s s.csr.seip 9).trans rfl
  · exact fun k => ⟨BitVec.getLsbD_and.trans (Bool.and_comm _ _), BitVec.getLsbD_and.trans (Bool.and_comm _ _)⟩
  · exact s.csrPut_sie_mie v
  · exact s.csrPut_sip_mip v
  · intro hx p hp
    have hw : v.toNat < 2 ^ 32 := by
      have := (Config.norm_eq_self_iff _ _).1 hv
      rwa [hx] at this
    have hlow : lowPart s.cfg.xlen = .lo := by rw [hx]; rfl
    simp only [List.mem_cons, List.not_mem_nil, or_false] at hp
    rcases hp with rfl | rfl <;> simp only [State.csrPut, State.csrGet, hlow] <;>
      exact ⟨partGet_hi_partSet_hi hw _, partGet_lo_partSet_hi _ _, partGet_hi_partSet_lo _ _⟩
  · refine ⟨?_, rfl, rfl, rfl, ?_, ?_⟩
    · exact (BitVec.toNat_setWidth_of_le (by decide : 3 + 5 ≤ 64)).trans (toNat_append_eq s.frm s.fflags)
    · refine BitVec.eq_of_toNat_eq ((BitVec.extractLsb'_toNat 5 3 v).trans ?_)
      rw [BitVec.toNat_setWidth, BitVec.toNat_ushiftRight]
    · intro r hr
      simp only [List.mem_cons, List.not_mem_nil, or_false] at hr
      rcases hr with rfl | rfl | rfl <;> rfl
  · intro r hr
    simp only [List.mem_cons, List.not_mem_nil, or_false] at hr
    rcases hr with rfl | rfl | rfl | rfl | rfl | rfl | rfl | rfl <;> rfl
  · exact (congrArg _ (BitVec.ofInt_natCast 64 s.cfg.hartId).symm).trans (s.cfg.norm_ofInt _)
  · cases r <;> rfl
  · intro read mpp
    have hread : ∀ t k, read t k = mstatusBit t.cfg t.csr.mstatus k := State.mstatusWord_getLsbD
    simp only [hread]
    refine ⟨fun k => mstatusBit_mstatusOf _ _ _ _, fun k => mstatusBit_sstatusOf _ _ _ _, fun k => ?_⟩
    refine BitVec.getLsbD_and.trans ?_
    rw [sstatusMask_getLsbD, State.mstatusWord_getLsbD, Bool.and_comm]
    rfl

end Sys2Proof.Machine
end

section
/-! Address translation: the walk over the tables, against the tables it reaches (20_memory.md R122 to R127). -/

namespace Sys2Proof.Machine

open Sys2Proof

section

variable {s : State} {k : Access} {va : Word}

/-! ### The conditions of a walk -/

theorem pageExc_eq (k : Access) : pageExc k = pageFaultOf k := by cases k <;> rfl

theorem accessExc_eq (k : Access) : accessExc k = accessFaultOf k := by cases k <;> rfl

theorem State.accessPriv_eq (s : State) (k : Access) : s.accessPriv k = s.privilegeOf k := by
  unfold State.accessPriv State.privilegeOf
  cases k <;> cases s.priv <;> cases s.csr.mstatus.mprv <;> rfl

theorem State.paged_iff (s : State) : s.paged = true ↔ s.pagingOn := by
  have hlt := s.csr.satp.isLt
  unfold State.paged State.pagingOn
  cases s.cfg.xlen
  · exact beq_iff_eq.trans (extractLsb'_eq_ofNat_iff _ 31 1 1)
  · refine (beq_iff_eq.trans (extractLsb'_eq_ofNat_iff _ 60 4 8)).trans ?_
    simp only
    omega

theorem State.rootPpn_eq (s : State) : s.rootPpn = s.csr.satp.toNat % 2 ^ ppnWidth s.cfg.xlen := by
  unfold State.rootPpn
  cases s.cfg.xlen <;> exact (BitVec.extractLsb'_toNat _ _ _).trans (by rw [Nat.shiftRight_zero]; rfl)

theorem ptePpn_eq (x : Xlen) (pte : Word) : ptePpn x pte = entryPpn x pte := by
  unfold ptePpn entryPpn
  cases x <;> exact (BitVec.extractLsb'_toNat _ _ _).trans (by rw [Nat.shiftRight_eq_div_pow]; rfl)

/-- An address Sv39 translates repeats bit 38 (20_memory.md R124). -/
theorem State.vaCanonical_iff (s : State) (va : Word) : vaCanonical s.cfg.xlen va = true ↔ s.canonical va := by
  unfold vaCanonical State.canonical
  cases s.cfg.xlen with
  | rv32 => simp
  | rv64 =>
    have hbit : ∀ j < 64, ((va.setWidth 39).signExtend 64).getLsbD j = if j < 39 then va.getLsbD j else va.getLsbD 38 := by
      intro j hj
      rw [BitVec.getLsbD_signExtend]
      split_ifs with h <;> simp [hj, h, BitVec.msb_eq_getLsbD_last]
    simp only [beq_iff_eq, true_implies]
    constructor
    · intro h j h38 hj
      by_cases he : j = 38
      · rw [he]
      · have := hbit j hj
        rwa [h, if_neg (by omega)] at this
    · intro h
      apply BitVec.eq_of_getLsbD_eq
      intro j hj
      rw [hbit j hj]
      split_ifs with h39
      · rfl
      · exact (h j (by omega) hj).symm

theorem pteReserved_iff (x : Xlen) (pte : Word) :
    pteReserved x pte = false ↔ (x = .rv64 → ∀ j, 54 ≤ j → pte.getLsbD j = false) := by
  cases x with
  | rv32 => simp [pteReserved]
  | rv64 =>
    simp only [pteReserved, bne_eq_false_iff_eq, true_implies]
    constructor
    · intro h j hj
      have hb := congrArg (fun w => w.getLsbD (j - 54)) h
      by_cases hlt : j < 64
      · simpa [BitVec.getLsbD_extractLsb', show j - 54 < 10 by omega, show 54 + (j - 54) = j by omega] using hb
      · exact BitVec.getLsbD_of_ge _ _ (by omega)
    · intro h
      apply BitVec.eq_of_getLsbD_eq
      intro j hj
      simp [hj, h (54 + j) (by omega)]

theorem validEntry_iff (x : Xlen) (pte : Word) :
    ValidEntry x pte ↔ (!pteV pte || (!pteR pte && pteW pte) || pteReserved x pte) = false := by
  simp only [ValidEntry, Bool.or_eq_false_iff, pteReserved_iff, pteV, pteR, pteW, Bool.not_eq_false', and_assoc]
  cases pte.getLsbD 1 <;> cases pte.getLsbD 2 <;> simp

theorem leafEntry_iff (pte : Word) : LeafEntry pte ↔ (pteR pte || pteX pte) = true := (Bool.or_eq_true _ _).symm.to_iff

theorem mem_fetch_iff (k : Access) : k ∈ [Access.fetch, .table] ↔ accessClass k = .fetch := by cases k <;> decide

theorem mem_load_iff (k : Access) : k ∈ [Access.load, .lr, .pop] ↔ accessClass k = .load := by cases k <;> decide

theorem mem_store_iff (k : Access) : k ∈ [Access.store, .sc, .amo, .push] ↔ accessClass k = .store := by
  cases k <;> decide

/-- The checks of a leaf, together (20_memory.md R125 (5) to (7), R126, R127). -/
theorem State.leafPermits_iff (s : State) (k : Access) (level : Nat) (pte : Word) :
    s.LeafPermits k level pte ↔
      s.leafOk k pte = true ∧ ptePpn s.cfg.xlen pte % 2 ^ (vpnBits s.cfg.xlen * level) = 0 ∧ accessedOk k pte = true := by
  unfold State.LeafPermits State.leafOk accessedOk
  rw [ptePpn_eq, State.accessPriv_eq, mem_fetch_iff, mem_load_iff, mem_store_iff]
  generalize s.privilegeOf k = p, accessClass k = class'
  cases class' <;> cases p <;>
    simp [pteR, pteW, pteX, pteU, pteA, pteD, and_assoc, and_left_comm, and_comm, or_iff_not_imp_left]

/-- The address of a leaf that is aligned to its page (20_memory.md R125 (8)). -/
theorem State.leafAddr_eq {level : Nat} {pte : Word} (h : ptePpn s.cfg.xlen pte % 2 ^ (vpnBits s.cfg.xlen * level) = 0) :
    ptePpn s.cfg.xlen pte / 2 ^ (vpnBits s.cfg.xlen * level) * (2 ^ (vpnBits s.cfg.xlen * level) * 4096) +
      va.toNat % (2 ^ (vpnBits s.cfg.xlen * level) * 4096) = s.leafAddr va level pte := by
  rw [← Nat.mul_assoc, Nat.div_mul_cancel (Nat.dvd_of_mod_eq_zero h), ptePpn_eq, Nat.mul_comm (2 ^ _) 4096]
  rfl

theorem State.leaf_of_permits {level : Nat} {pte : Word} (h : s.LeafPermits k level pte) :
    s.leaf k va level pte = .ok (s.leafAddr va level pte) := by
  obtain ⟨hok, haligned, hda⟩ := (s.leafPermits_iff k level pte).1 h
  simp only [State.leaf, hok, haligned, hda, State.leafAddr_eq haligned, Bool.not_true, Bool.false_eq_true, if_false,
    ne_eq, not_true_eq_false]

theorem State.leaf_of_not_permits {level : Nat} {pte : Word} (h : ¬ s.LeafPermits k level pte) :
    s.leaf k va level pte = .error (pageFaultOf k) := by
  rw [State.leafPermits_iff] at h
  simp only [State.leaf, pageExc_eq]
  split_ifs with hok haligned hda
  · rfl
  · rfl
  · rfl
  · exact absurd ⟨by simpa using hok, by simpa using haligned, by simpa using hda⟩ h

/-! ### One level of the walk -/

section

variable {level table : Nat}

theorem State.walk_of_unreadable (h : ¬ s.entryReadable va level table) :
    s.walk k va (level + 1) table = .error (accessFaultOf k) :=
  (if_neg h).trans (congrArg _ (accessExc_eq k))

theorem State.walk_of_readable (h : s.entryReadable va level table) :
    s.walk k va (level + 1) table =
      if (!pteV (s.entry k va level table) || (!pteR (s.entry k va level table) && pteW (s.entry k va level table)) ||
          pteReserved s.cfg.xlen (s.entry k va level table)) = true then .error (pageExc k)
      else if (pteR (s.entry k va level table) || pteX (s.entry k va level table)) = true then
        s.leaf k va level (s.entry k va level table)
      else if (pteD (s.entry k va level table) || pteA (s.entry k va level table) || pteU (s.entry k va level table)) = true
      then .error (pageExc k)
      else s.walk k va level (ptePpn s.cfg.xlen (s.entry k va level table)) :=
  if_pos h

/-- What the walk does with an entry it reads (20_memory.md R125 (3), (4)). -/
theorem State.walk_readable_cases (h : s.entryReadable va level table) :
    (¬ ValidEntry s.cfg.xlen (s.entry k va level table) → s.walk k va (level + 1) table = .error (pageFaultOf k)) ∧
      (ValidEntry s.cfg.xlen (s.entry k va level table) → LeafEntry (s.entry k va level table) →
        s.walk k va (level + 1) table = s.leaf k va level (s.entry k va level table)) ∧
      (ValidEntry s.cfg.xlen (s.entry k va level table) → ¬ LeafEntry (s.entry k va level table) →
        (∀ j ∈ [4, 6, 7], (s.entry k va level table).getLsbD j = false) →
        s.walk k va (level + 1) table = s.walk k va level (entryPpn s.cfg.xlen (s.entry k va level table))) ∧
      (¬ LeafEntry (s.entry k va level table) → (∃ j ∈ [4, 6, 7], (s.entry k va level table).getLsbD j = true) →
        s.walk k va (level + 1) table = .error (pageFaultOf k)) := by
  rw [State.walk_of_readable h]
  generalize s.entry k va level table = pte
  rw [validEntry_iff, leafEntry_iff, pageExc_eq, ptePpn_eq]
  refine ⟨fun hv => ?_, fun hv hl => ?_, fun hv hl hc => ?_, fun hl hc => ?_⟩
  · rw [if_pos (Bool.eq_true_of_not_eq_false hv)]
  · rw [if_neg (by simp [hv]), if_pos hl]
  · rw [if_neg (by simp [hv]), if_neg hl, if_neg (by simpa [pteD, pteA, pteU, and_comm, and_left_comm] using hc)]
  · split
    · rfl
    · exact if_pos (by simpa [pteD, pteA, pteU, or_comm, or_left_comm] using hc)

end

/-! ### The walk from the root -/

/-- A walk goes on at every table it reaches. -/
theorem State.Reaches.walk_eq {level table : Nat} (h : s.Reaches k va level table) :
    s.walk k va (walkLevels s.cfg.xlen) s.rootPpn = s.walk k va (level + 1) table := by
  induction h with
  | root =>
    rw [State.rootPpn_eq]
    cases s.cfg.xlen <;> rfl
  | next _ readable valid pointer clear ih =>
    obtain ⟨-, -, hpointer, -⟩ := State.walk_readable_cases (k := k) readable
    exact ih.trans (hpointer valid pointer clear)

/-- A walk that succeeds ends at a leaf that permits the access. -/
theorem State.Reaches.of_walk_ok {level table pa : Nat} (h : s.Reaches k va level table)
    (hw : s.walk k va (level + 1) table = .ok pa) :
    ∃ level table, s.Reaches k va level table ∧ s.entryReadable va level table ∧
      ValidEntry s.cfg.xlen (s.entry k va level table) ∧ LeafEntry (s.entry k va level table) ∧
      s.LeafPermits k level (s.entry k va level table) ∧ pa = s.leafAddr va level (s.entry k va level table) := by
  by_cases hr : s.entryReadable va level table
  case neg => rw [State.walk_of_unreadable hr] at hw; cases hw
  obtain ⟨hinvalid, hleaf, hpointer, hstuck⟩ := State.walk_readable_cases (k := k) hr
  by_cases hv : ValidEntry s.cfg.xlen (s.entry k va level table)
  case neg => rw [hinvalid hv] at hw; cases hw
  by_cases hl : LeafEntry (s.entry k va level table)
  · rw [hleaf hv hl] at hw
    by_cases hp : s.LeafPermits k level (s.entry k va level table)
    · rw [State.leaf_of_permits hp] at hw; cases hw
      exact ⟨level, table, h, hr, hv, hl, hp, rfl⟩
    · rw [State.leaf_of_not_permits hp] at hw; cases hw
  · by_cases hc : ∀ j ∈ [4, 6, 7], (s.entry k va level table).getLsbD j = false
    · rw [hpointer hv hl hc] at hw
      cases level with
      | zero => cases hw
      | succ level => exact State.Reaches.of_walk_ok (.next h hr hv hl hc) hw
    · push Not at hc
      rw [hstuck hl (by simpa using hc)] at hw; cases hw
termination_by level

end

/-- Settles O23: the walk from the root goes on at every table reached, and ends where its last entry says. -/
theorem translatedAccessesNeedAPermittedLeaf : Obligations.TranslatedAccessesNeedAPermittedLeaf := by
  unfold Obligations.TranslatedAccessesNeedAPermittedLeaf
  intro s k va
  have hcond : (s.paged = true ∧ s.accessPriv k ≠ .m) ↔ (s.pagingOn ∧ s.privilegeOf k ≠ .m) := by
    rw [s.paged_iff, s.accessPriv_eq]
  refine ⟨fun h => if_neg ?_, fun hon hpriv => ?_⟩
  · rw [hcond]; tauto
  have ht : s.translate k va =
      if vaCanonical s.cfg.xlen va = true then s.walk k va (walkLevels s.cfg.xlen) s.rootPpn else .error (pageExc k) :=
    if_pos (hcond.2 ⟨hon, hpriv⟩)
  refine ⟨fun hc => ?_, fun hc => ?_⟩
  · rw [ht, if_neg (fun h => hc ((s.vaCanonical_iff va).1 h)), pageExc_eq]
  rw [ht, if_pos ((s.vaCanonical_iff va).2 hc)]
  refine ⟨fun pa => ⟨fun hw => ?_, ?_⟩, fun level table hreach => ⟨fun hr => ?_, fun hr hcase => ?_⟩⟩
  · exact State.Reaches.of_walk_ok .root (State.Reaches.root.walk_eq.symm.trans hw)
  · rintro ⟨level, table, hreach, hr, hv, hl, hp, rfl⟩
    obtain ⟨-, hleaf, -, -⟩ := State.walk_readable_cases (k := k) hr
    rw [hreach.walk_eq, hleaf hv hl, State.leaf_of_permits hp]
  · rw [hreach.walk_eq, State.walk_of_unreadable hr]
  · obtain ⟨hinvalid, hleaf, hpointer, hstuck⟩ := State.walk_readable_cases (k := k) hr
    rw [hreach.walk_eq]
    by_cases hv : ValidEntry s.cfg.xlen (s.entry k va level table)
    case neg => exact hinvalid hv
    obtain hnv | ⟨hl, hp⟩ | ⟨hl, hlast⟩ := hcase
    · exact absurd hv hnv
    · rw [hleaf hv hl, State.leaf_of_not_permits hp]
    · by_cases hset : ∃ j ∈ [4, 6, 7], (s.entry k va level table).getLsbD j = true
      · exact hstuck hl hset
      · obtain rfl := hlast.resolve_right hset
        rw [hpointer hv hl (by simpa using hset), State.walk, pageExc_eq]

end Sys2Proof.Machine
end

section
/-! Floating-point operations with no numeric result (44_fd.md R392, R393, R397). -/

namespace Sys2Proof.Machine

open Sys2Proof

namespace FVal

/-! ### NaN operands -/

theorem isNan_of_isSignaling {x : FVal} (h : x.isSignaling = true) : x.isNan = true := by
  cases x with
  | nan => rfl
  | inf | fin => cases h

theorem eq_nan_of_isNan {x : FVal} (h : x.isNan = true) : x = .nan x.isSignaling := by
  cases x with
  | nan => rfl
  | inf | fin => cases h

theorem isNan_neg (x : FVal) : x.neg.isNan = x.isNan := by cases x <;> rfl

theorem isSignaling_neg (x : FVal) : x.neg.isSignaling = x.isSignaling := by cases x <;> rfl

section

variable {x y : FVal} (h : (x.isNan || y.isNan) = true)
include h

theorem add_of_isNan (mode : RMode) : x.add mode y = .nan (x.isSignaling || y.isSignaling) := by
  cases x with
  | nan => rfl
  | inf | fin =>
    rw [eq_nan_of_isNan (x := y) (by simpa [isNan] using h)]; rfl

theorem mul_of_isNan : x.mul y = .nan (x.isSignaling || y.isSignaling) := by
  cases x with
  | nan => rfl
  | inf | fin =>
    rw [eq_nan_of_isNan (x := y) (by simpa [isNan] using h)]; rfl

theorem div_of_isNan (p : Nat) : x.div p y = (.nan (x.isSignaling || y.isSignaling), false) := by
  cases x with
  | nan => rfl
  | inf | fin =>
    rw [eq_nan_of_isNan (x := y) (by simpa [isNan] using h)]; rfl

end

/-! ### A negated operand -/

/-- The negative, or the operand itself. -/
def negIf (b : Bool) (x : FVal) : FVal := if b then x.neg else x

section

variable (b : Bool)

theorem isNan_negIf (x : FVal) : (x.negIf b).isNan = x.isNan := by cases b <;> simp [negIf, isNan_neg]

theorem isSignaling_negIf (x : FVal) : (x.negIf b).isSignaling = x.isSignaling := by
  cases b <;> simp [negIf, isSignaling_neg]

theorem negIf_inf (sign : Bool) : (inf sign).negIf b = .inf (sign ^^ b) := by cases b <;> cases sign <;> rfl

theorem negIf_fin (sign : Bool) (m : Nat) (e : Int) : (fin sign m e).negIf b = .fin (sign ^^ b) m e := by
  cases b <;> cases sign <;> rfl

end

end FVal

/-! ### The operations -/

section

variable {f : Fmt} {mode : RMode} {a b : Word}

theorem roundVal_nan (sig : Bool) : roundVal f mode (.nan sig) = (f.nan, if sig then flagNV else 0) := rfl

/-- A NaN operand of a sum, a product or a quotient (44_fd.md R393, R394). -/
theorem fp_of_anyNan (h : anyNan f a b = true) :
    ∀ op ∈ [fpAdd, fpSub, fpMul, fpDiv], op f mode a b = (f.nan, if anySignaling f a b then flagNV else 0) := by
  have hneg : ((f.val a).isNan || (f.val b).neg.isNan) = true := by rwa [FVal.isNan_neg]
  intro op hop
  simp only [List.mem_cons, List.not_mem_nil, or_false] at hop
  rcases hop with rfl | rfl | rfl | rfl
  · rw [fpAdd, FVal.add_of_isNan h, roundVal_nan]; rfl
  · rw [fpSub, FVal.add_of_isNan hneg, roundVal_nan, FVal.isSignaling_neg]; rfl
  · rw [fpMul, FVal.mul_of_isNan h, roundVal_nan]; rfl
  · simp only [fpDiv, FVal.div_of_isNan h, roundVal_nan]
    exact congrArg (Prod.mk _) (BitVec.or_zero)

theorem anyNan_of_anySignaling (h : anySignaling f a b = true) : anyNan f a b = true := by
  simp only [anySignaling, anyNan, Bool.or_eq_true] at h ⊢
  exact h.imp FVal.isNan_of_isSignaling FVal.isNan_of_isSignaling

theorem fpSqrt_of_isNan (h : (f.val a).isNan = true) :
    fpSqrt f mode a = (f.nan, if (f.val a).isSignaling then flagNV else 0) := by
  rw [fpSqrt, FVal.eq_nan_of_isNan h]; rfl

theorem fpConvert_of_isNan (g : Fmt) (h : (f.val a).isNan = true) :
    fpConvert f g mode a = (g.nan, if (f.val a).isSignaling then flagNV else 0) := by
  rw [fpConvert, FVal.eq_nan_of_isNan h]; rfl

end

/-! ### Fused forms -/

namespace FVal

theorem negIf_nan (b sig : Bool) : (nan sig).negIf b = .nan sig := by cases b <;> rfl

theorem mul_comm (x y : FVal) : x.mul y = y.mul x := by
  cases x <;> cases y <;> simp [mul, isSignaling, Bool.or_comm, Bool.xor_comm, Nat.mul_comm, Int.add_comm]

/-- The sign of a product is that of either factor. -/
theorem negIf_mul (b : Bool) (x y : FVal) : (x.negIf b).mul y = (x.mul y).negIf b := by
  cases b with
  | false => rfl
  | true => cases x <;> cases y <;> simp [negIf, neg, mul] <;> split_ifs <;> rfl

/-- An infinity times a zero is invalid. -/
theorem inf_mul_zero (s t : Bool) (k : Int) : (inf s).mul (.fin t 0 k) = .nan true := rfl

/-- An infinity times anything else that is no NaN is an infinity. -/
theorem inf_mul {s t : Bool} {y : FVal} {n : Nat} {k : Int} (h : y = .inf t ∨ y = .fin t n k ∧ n ≠ 0) :
    (inf s).mul y = .inf (s ^^ t) := by
  obtain rfl | ⟨rfl, hn⟩ := h
  · rfl
  · exact if_neg hn

theorem mul_of_num {x y : FVal} (hx : x.num ≠ none) (hy : y.num ≠ none) : ∃ s m e, x.mul y = .fin s m e := by
  cases x with
  | nan | inf => exact absurd rfl hx
  | fin =>
    cases y with
    | nan | inf => exact absurd rfl hy
    | fin => exact ⟨_, _, _, rfl⟩

theorem inf_add_inf (mode : RMode) (s t : Bool) : (inf s).add mode (.inf t) = if s = t then .inf s else .nan true := rfl

end FVal

/-- The fused forms are one sum of a product, of which they negate terms (44_fd.md R397). -/
theorem fused_eq (f : Fmt) (mode : RMode) (a b c : Word) :
    ∀ form ∈ [(fpMadd, false, false), (fpMsub, false, true), (fpNmsub, true, false), (fpNmadd, true, true)],
      form.1 f mode a b c =
        roundVal f mode ((((f.val a).mul (f.val b)).negIf form.2.1).add mode ((f.val c).negIf form.2.2)) := by
  intro form hform
  simp only [List.mem_cons, List.not_mem_nil, or_false] at hform
  rcases hform with rfl | rfl | rfl | rfl <;> rw [← FVal.negIf_mul] <;> rfl

/-! ### The obligation -/

theorem roundVal_inf_or_nan (f : Fmt) (mode : RMode) (p : Prop) [Decidable p] (sign : Bool) :
    roundVal f mode (if p then .inf sign else .nan true) = if p then (f.inf sign, 0) else (f.nan, flagNV) := by
  split <;> rfl

/-- A quotient of no finite number by zero. -/
theorem fpDiv_of_div {f : Fmt} {mode : RMode} {a b : Word} {x : FVal} (h : (f.val a).div (f.mbits + 2) (f.val b) = (x, false)) :
    fpDiv f mode a b = roundVal f mode x := by
  simp only [fpDiv, h]
  exact Prod.ext rfl BitVec.or_zero

/-- A quotient by zero (44_fd.md R392). -/
theorem fpDiv_of_divZero {f : Fmt} {mode : RMode} {a b : Word} {sign : Bool}
    (h : (f.val a).div (f.mbits + 2) (f.val b) = (.inf sign, true)) : fpDiv f mode a b = (f.inf sign, flagDZ) := by
  simp only [fpDiv, h]
  exact Prod.ext rfl BitVec.zero_or

/-- A zero is a zero of its sign. -/
theorem num_zero (f : Fmt) (sign : Bool) : f.num (f.zero sign) = some 0 ∧ f.sign (f.zero sign) = sign := by
  have hval : ∃ e, f.val (f.zero sign) = .fin sign 0 e := by
    refine ⟨f.emin - f.mbits, ?_⟩
    cases f <;> cases sign <;> decide
  obtain ⟨e, he⟩ := hval
  refine ⟨?_, ?_⟩
  · rw [Fmt.num, he]; simp [FVal.num]
  · cases f <;> cases sign <;> decide

/-- Settles O57: the operations by the kinds of their operands, and the fused forms as a sum of a product, either of which
may be negated. -/
theorem specialOperandsGiveSpecialResults : Obligations.SpecialOperandsGiveSpecialResults := by
  unfold Obligations.SpecialOperandsGiveSpecialResults
  refine ⟨fun f mode a b sa sb m n e k => ⟨fun h op hop => ?_, fun h hq op hop => ?_, fun ha hb => ?_, fun ha hb => ?_,
    fun ha hb => ?_, fun ha hm => ?_, fun ha => ?_, fpSqrt_of_isNan, fun g => ⟨fpConvert_of_isNan g, fun ha => ?_⟩⟩,
    fun f mode a b c sa sb sc n l k q form hform => ?_, by decide, by decide, num_zero⟩
  · rw [fp_of_anyNan (anyNan_of_anySignaling h) op hop, if_pos h]
  · rw [fp_of_anyNan h op hop, hq]; rfl
  · refine ⟨?_, ?_, ?_, fpDiv_of_div (x := .nan true) (by rw [ha, hb]; rfl)⟩ <;> simp only [fpAdd, fpSub, fpMul, ha, hb]
    · exact roundVal_inf_or_nan ..
    · cases sa <;> cases sb <;> rfl
    · rfl
  · refine ⟨?_, ?_, ?_, ?_, ?_, ?_, fpDiv_of_div (x := .inf (sa ^^ sb)) (by rw [ha, hb]; rfl), ?_⟩
    · simp only [fpAdd, ha, hb]; rfl
    · simp only [fpSub, ha, hb]; rfl
    · simp only [fpAdd, ha, hb]; rfl
    · simp only [fpSub, ha, hb]; rfl
    · simp only [fpMul, ha, hb]; exact apply_ite _ _ _ _
    · exact congrArg (roundVal f mode) (FVal.mul_comm _ _)
    · rw [Bool.xor_comm]; exact fpDiv_of_div (x := .fin (sb ^^ sa) 0 0) (by rw [ha, hb]; rfl)
  · split
    case isTrue h0 => exact fpDiv_of_div (x := .nan true) (by rw [ha, hb, h0]; rfl)
    case isFalse h0 => exact fpDiv_of_divZero (by rw [ha, hb]; exact if_neg h0)
  · simp only [fpSqrt, ha, FVal.sqrt, if_neg hm, if_true]; rfl
  · simp only [fpSqrt, ha, FVal.sqrt]
    split <;> rfl
  · rw [fpConvert, ha]; rfl
  · intro op sp st
    have hop : ∀ a b c : Word, op a b c =
        roundVal f mode ((((f.val a).mul (f.val b)).negIf form.2.1).add mode ((f.val c).negIf form.2.2)) :=
      fun a b c => fused_eq f mode a b c form hform
    have hcomm : op b a c = op a b c := by rw [hop, hop, FVal.mul_comm]
    rw [hcomm, hop]
    refine ⟨?_, fun ha hb => ?_, fun hab hc => ⟨fun hn => ?_, fun hn ha hb => ?_, fun ha hb => ⟨fun hn => ?_, fun hfin => ?_,
      fun hinf => ?_⟩, fun ha hb hinf => ?_⟩⟩
    · rintro (h | h)
      · rw [FVal.mul_of_isNan (anyNan_of_anySignaling h), FVal.negIf_nan]
        rw [show ((f.val a).isSignaling || (f.val b).isSignaling) = true from h]
        rfl
      · rw [FVal.add_of_isNan, FVal.isSignaling_negIf _ (f.val c), h, Bool.or_true]
        · rfl
        · rw [FVal.isNan_negIf _ (f.val c), FVal.isNan_of_isSignaling h, Bool.or_true]
    · rw [ha, hb, FVal.inf_mul_zero, FVal.negIf_nan, and_self]
      rfl
    · rw [FVal.mul_of_isNan hn, FVal.negIf_nan]
      rw [show ((f.val a).isSignaling || (f.val b).isSignaling) = false from hab]
      exact congrArg _ (congrArg FVal.nan ((FVal.isSignaling_negIf _ _).trans hc))
    · obtain ⟨s, m, e, hm⟩ := FVal.mul_of_num ha hb
      rw [hm, FVal.eq_nan_of_isNan hn, hc, FVal.negIf_fin, FVal.negIf_nan]
      rfl
    · rw [ha, FVal.inf_mul hb, FVal.eq_nan_of_isNan hn, hc, FVal.negIf_inf, FVal.negIf_nan, and_self]
      rfl
    · rw [ha, FVal.inf_mul hb, hfin, FVal.negIf_inf, FVal.negIf_fin, and_self]
      rfl
    · rw [ha, FVal.inf_mul hb, hinf, FVal.negIf_inf, FVal.negIf_inf, FVal.inf_add_inf]
      exact ⟨roundVal_inf_or_nan .., rfl⟩
    · obtain ⟨s, m, e, hm⟩ := FVal.mul_of_num ha hb
      rw [hm, hinf, FVal.negIf_fin, FVal.negIf_inf]
      rfl

end Sys2Proof.Machine
end

section
/-! Main memory as bytes (20_memory.md R106): what each byte reads as after a write of several, the bits of a value read,
and that memories in canonical form are equal when their bytes are. -/

namespace Sys2Proof.Machine

open Sys2Proof

/-! ### Writes -/

/-- A byte of a value moved down by one byte is the next byte of the value. -/
theorem extractLsb'_ushiftRight_byte (v : Word) (j : Nat) :
    (v >>> 8).extractLsb' (8 * j) 8 = v.extractLsb' (8 * (j + 1)) 8 := by
  apply BitVec.eq_of_getLsbD_eq
  intro k hk
  simp only [BitVec.getLsbD_extractLsb', BitVec.getLsbD_ushiftRight]
  rw [show 8 + (8 * j + k) = 8 * (j + 1) + k by omega]

theorem extractLsb'_zero_byte (v : Word) : v.extractLsb' 0 8 = v.setWidth 8 :=
  (BitVec.setWidth_eq_extractLsb' (by decide)).symm

/-- Every byte after a write of `n` bytes: those of the value, least significant first, and no other byte changes. -/
theorem memGet_memWrite (m : List Host.Cell) (a n : Nat) (v : Word) (b : Nat) :
    memGet (memWrite m a n v) b = if a ≤ b ∧ b < a + n then v.extractLsb' (8 * (b - a)) 8 else memGet m b := by
  induction n generalizing m a v with
  | zero => rw [memWrite, if_neg (by omega)]
  | succ n ih =>
    rw [memWrite, ih, memGet_memSet, extractLsb'_ushiftRight_byte]
    by_cases hab : b = a
    · subst hab
      rw [if_neg (by omega), if_pos rfl, if_pos (by omega), Nat.sub_self, Nat.mul_zero, extractLsb'_zero_byte]
    · by_cases hin : a ≤ b ∧ b < a + (n + 1)
      · rw [if_pos (by omega), if_pos hin, show b - (a + 1) + 1 = b - a by omega]
      · rw [if_neg (by omega), if_neg hab, if_neg hin]

/-! ### Reads -/

theorem two_pow_eight_mul (n : Nat) : 2 ^ (8 * n) = 256 ^ n := Nat.pow_mul 2 8 n

theorem gatherNat_lt (m : List Host.Cell) (pa : Nat → Nat) (n : Nat) : gatherNat m pa n < 2 ^ (8 * n) := by
  induction n with
  | zero => simp [gatherNat]
  | succ n ih =>
    have hb : (memGet m (pa n)).toNat ≤ 255 := Nat.le_of_lt_succ (memGet m (pa n)).isLt
    have hstep := Nat.mul_le_mul_left (256 ^ n) hb
    rw [two_pow_eight_mul] at ih ⊢
    rw [gatherNat, Nat.pow_succ]
    omega

/-- The value of the bytes a function gives, as a number below 256^n: bit `k` is a bit of byte `k / 8`. -/
theorem testBit_gatherNat (m : List Host.Cell) (pa : Nat → Nat) (n k : Nat) :
    (gatherNat m pa n).testBit k = (decide (k < 8 * n) && (memGet m (pa (k / 8))).getLsbD (k % 8)) := by
  induction n with
  | zero => simp [gatherNat]
  | succ n ih =>
    rw [gatherNat, Nat.add_comm, ← two_pow_eight_mul,
      Nat.testBit_two_pow_mul_add _ (gatherNat_lt m pa n), ih]
    by_cases hk : k < 8 * n
    · simp [hk, show k < 8 * (n + 1) by omega]
    · simp only [hk, if_false]
      by_cases hk' : k < 8 * (n + 1)
      · rw [decide_eq_true hk', Bool.true_and, show k / 8 = n by omega, show k - 8 * n = k % 8 by omega]; rfl
      · rw [decide_eq_false hk', Bool.false_and]
        exact BitVec.getLsbD_of_ge _ _ (by omega)

/-- The bytes at consecutive addresses. -/
theorem leNat_eq_gatherNat (m : List Host.Cell) (a n : Nat) : leNat m a n = gatherNat m (a + ·) n := by
  have hcons : ∀ n a, leNat m a (n + 1) = leNat m a n + 256 ^ n * (memGet m (a + n)).toNat := by
    intro n
    induction n with
    | zero => intro a; simp [leNat]
    | succ n ih =>
      intro a
      rw [leNat, ih (a + 1), leNat, show a + 1 + n = a + (n + 1) by omega]
      ring
  induction n with
  | zero => rfl
  | succ n ih => rw [hcons, gatherNat, ih]

/-- The bits of a value with one more byte below it. -/
theorem getLsbD_shiftLeft_or_byte (w : Word) (b : Byte) (k : Nat) :
    (w <<< 8 ||| b.setWidth 64).getLsbD k = if k < 8 then b.getLsbD k else decide (k < 64) && w.getLsbD (k - 8) := by
  rw [BitVec.getLsbD_or, BitVec.getLsbD_shiftLeft, BitVec.getLsbD_setWidth]
  by_cases hk : k < 8
  · simp [hk, show k < 64 by omega]
  · simp [hk, BitVec.getLsbD_of_ge b k (by omega)]

/-- The bits of a value of at most 8 bytes put together byte by byte, as a read of main memory and one of a device do. -/
theorem getLsbD_of_bytes {read : Nat → Nat → Word} {byte : Nat → Byte} (h0 : ∀ a, read a 0 = 0)
    (hs : ∀ a n, read a (n + 1) = read (a + 1) n <<< 8 ||| (byte a).setWidth 64) (a n k : Nat) (hn : n ≤ 8) :
    (read a n).getLsbD k = (decide (k < 8 * n) && (byte (a + k / 8)).getLsbD (k % 8)) := by
  induction n generalizing a k with
  | zero => simp [h0]
  | succ n ih =>
    rw [hs, getLsbD_shiftLeft_or_byte, ih _ _ (by omega)]
    by_cases hk : k < 8
    · simp [hk, show k < 8 * (n + 1) by omega, Nat.div_eq_of_lt hk, Nat.mod_eq_of_lt hk]
    · rw [if_neg hk, show a + 1 + (k - 8) / 8 = a + k / 8 by omega, show (k - 8) % 8 = k % 8 by omega]
      by_cases hk' : k < 8 * (n + 1)
      · simp [hk', show k < 64 by omega, show k - 8 < 8 * n by omega]
      · simp [hk', show ¬ k - 8 < 8 * n by omega]

theorem getLsbD_memRead (m : List Host.Cell) (a n k : Nat) (hn : n ≤ 8) :
    (memRead m a n).getLsbD k = (decide (k < 8 * n) && (memGet m (a + k / 8)).getLsbD (k % 8)) :=
  getLsbD_of_bytes (read := memRead m) (fun _ => rfl) (fun _ _ => rfl) a n k hn

/-- The bits of what a device answers (20_memory.md R114). -/
theorem getLsbD_deviceRead (q : DeviceRead) (n k : Nat) (hn : n ≤ 8) :
    (deviceRead q n).getLsbD k =
      (decide (k < 8 * n) && (Config.deviceByte { q with pa := q.pa + k / 8 }).getLsbD (k % 8)) :=
  getLsbD_of_bytes (read := fun a n => deviceRead { q with pa := a } n)
    (byte := fun a => Config.deviceByte { q with pa := a }) (fun _ => rfl) (fun _ _ => rfl) q.pa n k hn

/-- A word is the number its bits name. -/
theorem toNat_eq_of_testBit {w : Word} {i : Nat} (h : ∀ k, w.getLsbD k = i.testBit k) : w.toNat = i :=
  Nat.eq_of_testBit_eq fun k => (BitVec.testBit_toNat w).trans (h k)

theorem memRead_toNat (m : List Host.Cell) (a n : Nat) (hn : n ≤ 8) : (memRead m a n).toNat = leNat m a n :=
  toNat_eq_of_testBit fun k => by rw [getLsbD_memRead m a n k hn, leNat_eq_gatherNat, testBit_gatherNat]

/-- A read of the bytes just written gives the low bytes of the value. -/
theorem memRead_memWrite_toNat (m : List Host.Cell) (a n : Nat) (v : Word) (hn : n ≤ 8) :
    (memRead (memWrite m a n v) a n).toNat = v.toNat % 2 ^ (8 * n) := by
  refine toNat_eq_of_testBit fun k => ?_
  rw [getLsbD_memRead _ _ _ _ hn, memGet_memWrite, Nat.testBit_mod_two_pow, BitVec.testBit_toNat]
  by_cases hk : k < 8 * n
  · rw [if_pos (by omega), BitVec.getLsbD_extractLsb', decide_eq_true (Nat.mod_lt k (by decide)), Bool.true_and,
      show 8 * (a + k / 8 - a) + k % 8 = k by omega]
  · simp [hk]

/-! ### Canonical form -/

/-- An address below every entry reads as an unlisted byte. -/
theorem memGet_of_notMem {m : List Host.Cell} {a : Nat} (h : ∀ c ∈ m, c.1 ≠ a) : memGet m a = unlistedByte := by
  induction m with
  | nil => rfl
  | cons c m ih =>
    have hc : a ≠ c.1 := (h c List.mem_cons_self).symm
    exact (if_neg hc).trans (ih fun d hd => h d (List.mem_cons_of_mem _ hd))

/-- Every address an entry of a canonical memory lists reads as that entry. -/
theorem memGet_of_mem {m : List Host.Cell} (hm : Memory.wf m) {c : Host.Cell} (hc : c ∈ m) : memGet m c.1 = c.2 := by
  obtain ⟨hsorted, hlisted⟩ := hm
  induction m with
  | nil => cases hc
  | cons d m ih =>
    obtain ⟨hlt, hsorted⟩ := List.pairwise_cons.1 hsorted
    rcases List.mem_cons.1 hc with rfl | hc
    · exact if_pos rfl
    · exact (if_neg (hlt c hc).ne').trans (ih hc hsorted fun d hd => hlisted d (List.mem_cons_of_mem _ hd))

/-- The entries of a canonical memory are the bytes that do not read as an unlisted one. -/
theorem mem_iff_memGet {m : List Host.Cell} (hm : Memory.wf m) (c : Host.Cell) :
    c ∈ m ↔ memGet m c.1 = c.2 ∧ c.2 ≠ unlistedByte := by
  refine ⟨fun h => ⟨memGet_of_mem hm h, hm.2 c h⟩, fun ⟨hget, hne⟩ => ?_⟩
  by_contra hc
  refine hne (hget.symm.trans (memGet_of_notMem fun d hd he => ?_))
  have hd2 : d.2 = c.2 := by rw [← memGet_of_mem hm hd, he, hget]
  exact hc (Prod.ext he hd2 ▸ hd)

/-- Memories in canonical form that read the same are the same: both list, in rising order, the bytes that differ from an
unlisted one. -/
theorem Memory.ext {m m' : List Host.Cell} (hm : Memory.wf m) (hm' : Memory.wf m') (h : ∀ a, memGet m a = memGet m' a) :
    m = m' := by
  have hmem : ∀ c, c ∈ m ↔ c ∈ m' := fun c => by rw [mem_iff_memGet hm, mem_iff_memGet hm', h]
  have hnodup : ∀ {l : List Host.Cell}, Memory.wf l → l.Nodup := fun hl =>
    hl.1.imp fun hlt he => hlt.ne (congrArg Prod.fst he)
  exact ((List.perm_ext_iff_of_nodup (hnodup hm) (hnodup hm')).2 hmem).eq_of_pairwise
    (fun a b _ _ hab hba => absurd hba hab.asymm) hm.1 hm'.1

/-- Settles O16, byte by byte for the writes, bit by bit for the reads. -/
theorem memoryReadsWhatWasWritten : Obligations.MemoryReadsWhatWasWritten := by
  unfold Obligations.MemoryReadsWhatWasWritten
  refine ⟨fun m a n v => ⟨memGet_memWrite m a n v, fun hn => ?_⟩, fun m m' hm hm' h => Memory.ext hm hm' h⟩
  exact ⟨memRead_toNat m a n hn, memRead_memWrite_toNat m a n v hn⟩

end Sys2Proof.Machine
end

section
/-! The loads and stores, integer and floating-point, said once by their tables (`State.loadOf`, `State.fpLoadOf`,
`State.storeOf`, `State.fpStoreOf`): each is one access at one address, and how it ends is what the access answers
(20_memory.md R101, 40_rv_i.md R263, 44_fd.md R404). -/

namespace Sys2Proof

/-! ### Values and offsets -/

/-- The low `l` bits of a value, sign-extended. -/
theorem Config.norm_signExtend_setWidth (c : Config) (v : Word) {l : Nat} (hl : l ≤ 64) :
    c.norm ((v.setWidth l).signExtend 64) = c.word ((v.toNat : Int).bmod (2 ^ l)) := by
  rw [eq_ofInt_toInt ((v.setWidth l).signExtend 64), norm_ofInt, BitVec.toInt_signExtend_of_le hl,
    BitVec.toInt_eq_toNat_bmod, BitVec.toNat_setWidth, Int.natCast_emod, Int.emod_bmod]

/-- A compressed offset, zero-extended and scaled (45_c.md R482). -/
theorem setWidth_shiftLeft_eq_ofInt {n : Nat} (i : BitVec n) (k : Nat) :
    i.setWidth 64 <<< k = BitVec.ofInt 64 (2 ^ k * i.toNat) := by
  rw [show (2 ^ k * i.toNat : Int) = ((i.toNat * 2 ^ k : Nat) : Int) by push_cast; ring, BitVec.ofInt_natCast]
  apply BitVec.eq_of_toNat_eq
  simp [Nat.shiftLeft_eq]

namespace Machine

section

variable {s u : State} {i : Instr} {m : MemOp} {f : Fmt} {v tval : Word} {e : Exc}

/-- The effective address as a number modulo 2^XLEN (20_memory.md R100). -/
theorem State.ea_eq_addr (s : State) (base : Reg) {offset : Word} {o : Int} (h : offset = BitVec.ofInt 64 o) :
    s.ea base offset = s.addr base o := by
  refine s.cfg.norm_of_modEq (i := (s.rx base).toNat + o) ?_ ((s.cfg.toU_modEq (s.rx base)).add_right o)
  rw [h, BitVec.ofInt_add, ← Config.eq_ofInt]

theorem State.ea_imm12 (s : State) (base : Reg) (imm : BitVec 12) : s.ea base (imm12 imm) = s.addr base imm.toInt :=
  s.ea_eq_addr base rfl

section

variable (s : State) (base : Reg) {n : Nat} (uimm : BitVec n)

theorem State.ea_uimm1 : s.ea base (uimm.setWidth 64) = s.addr base uimm.toNat :=
  s.ea_eq_addr base (by simpa only [BitVec.shiftLeft_zero, pow_zero, one_mul] using setWidth_shiftLeft_eq_ofInt uimm 0)

theorem State.ea_uimm2 (uimm : BitVec 1) : s.ea base (uimm2 uimm) = s.addr base (2 * uimm.toNat) :=
  s.ea_eq_addr base (setWidth_shiftLeft_eq_ofInt uimm 1)

theorem State.ea_uimm4 : s.ea base (uimm4 uimm) = s.addr base (4 * uimm.toNat) :=
  s.ea_eq_addr base (setWidth_shiftLeft_eq_ofInt uimm 2)

theorem State.ea_uimm8 : s.ea base (uimm8 uimm) = s.addr base (8 * uimm.toNat) :=
  s.ea_eq_addr base (setWidth_shiftLeft_eq_ofInt uimm 3)

end

/-! ### The tables -/

/-- The number a load of an integer register makes of the bytes it read. -/
def MemOp.value (m : MemOp) (v : Nat) : Int := if m.signed then (v : Int).bmod (2 ^ (8 * m.bytes)) else v

theorem State.norm_eq_value_of_unsigned (s : State) (hm : m.signed = false) (v : Word) :
    s.cfg.norm v = s.cfg.word (m.value v.toNat) := by
  rw [MemOp.value, hm]; exact s.cfg.norm_eq_word v

theorem State.norm_eq_value_of_signed (s : State) (hm : m.signed = true) (hn : m.bytes ≤ 8) (v : Word) :
    s.cfg.norm ((v.setWidth (8 * m.bytes)).signExtend 64) = s.cfg.word (m.value v.toNat) := by
  rw [MemOp.value, hm]; exact s.cfg.norm_signExtend_setWidth v (by omega)

/-- A load into an integer register is a load of its access, sign-extended or zero-extended. -/
theorem exec_of_loadOf (h : s.loadOf i = some m) :
    ∃ ext, exec i s = loadInt m.len m.reg m.va m.bytes ext s ∧
      ∀ v, s.cfg.norm (ext v) = s.cfg.word (m.value v.toNat) := by
  have unsigned : ∀ l r va n, ∀ v, s.cfg.norm v = s.cfg.word (MemOp.value ⟨l, r, va, n, false⟩ v.toNat) :=
    fun l r va n => s.norm_eq_value_of_unsigned (m := ⟨l, r, va, n, false⟩) rfl
  have signed : ∀ l r va n, n ≤ 8 → ∀ v : Word, s.cfg.norm ((v.setWidth (8 * n)).signExtend 64) =
      s.cfg.word (MemOp.value ⟨l, r, va, n, true⟩ v.toNat) :=
    fun l r va n hn => s.norm_eq_value_of_signed (m := ⟨l, r, va, n, true⟩) rfl hn
  have double : ∀ v : Word, id v = (v.setWidth (8 * 8)).signExtend 64 := fun v => by simp
  unfold State.loadOf at h
  split at h <;> cases h
  case h_1 => exact ⟨sext8, by rw [← State.ea_imm12]; rfl, signed _ _ _ 1 (by decide)⟩
  case h_2 => exact ⟨sext16, by rw [← State.ea_imm12]; rfl, signed _ _ _ 2 (by decide)⟩
  case h_3 => exact ⟨sext32, by rw [← State.ea_imm12]; rfl, signed _ _ _ 4 (by decide)⟩
  case h_4 | h_5 | h_6 => exact ⟨id, by rw [← State.ea_imm12]; rfl, unsigned _ _ _ _⟩
  case h_7 => exact ⟨id, by rw [← State.ea_imm12]; rfl, fun v => double v ▸ signed _ _ _ 8 le_rfl v⟩
  case h_8 | h_10 => exact ⟨sext32, by rw [← State.ea_uimm4]; rfl, signed _ _ _ 4 (by decide)⟩
  case h_9 | h_11 => exact ⟨id, by rw [← State.ea_uimm8]; rfl, fun v => double v ▸ signed _ _ _ 8 le_rfl v⟩
  case h_12 => exact ⟨id, by rw [← State.ea_uimm1]; rfl, unsigned _ _ _ _⟩
  case h_13 => exact ⟨id, by rw [← State.ea_uimm2]; rfl, unsigned _ _ _ _⟩
  case h_14 => exact ⟨sext16, by rw [← State.ea_uimm2]; rfl, signed _ _ _ 2 (by decide)⟩

/-- A load into a floating-point register is a load of its access in its format. -/
theorem exec_of_fpLoadOf (h : s.fpLoadOf i = some (f, m)) :
    m.bytes = f.bytes ∧ ∃ bits, exec i s = loadFp m.len bits f m.reg m.va s := by
  unfold State.fpLoadOf at h
  split at h <;> cases h
  case h_1 | h_2 | h_3 => exact ⟨rfl, _, by rw [← State.ea_imm12]; rfl⟩
  case h_4 | h_6 => exact ⟨rfl, _, by rw [← State.ea_uimm4]; rfl⟩
  case h_5 | h_7 => exact ⟨rfl, _, by rw [← State.ea_uimm8]; rfl⟩

theorem exec_of_storeOf (h : s.storeOf i = some m) : exec i s = storeVal m.len m.va m.bytes (s.rx m.reg) s := by
  unfold State.storeOf at h
  split at h <;> cases h
  case h_1 | h_2 | h_3 | h_4 => rw [← State.ea_imm12]; rfl
  case h_5 | h_7 => rw [← State.ea_uimm4]; rfl
  case h_6 | h_8 => rw [← State.ea_uimm8]; rfl
  case h_9 => rw [← State.ea_uimm1]; rfl
  case h_10 => rw [← State.ea_uimm2]; rfl

theorem exec_of_fpStoreOf (h : s.fpStoreOf i = some m) :
    ∃ bits, exec i s = fpGuard bits s (storeVal m.len m.va m.bytes (s.rf m.reg) s) := by
  unfold State.fpStoreOf at h
  split at h <;> cases h
  case h_1 | h_2 | h_3 => exact ⟨_, by rw [← State.ea_imm12]; rfl⟩
  case h_4 | h_6 => exact ⟨_, by rw [← State.ea_uimm4]; rfl⟩
  case h_5 | h_7 => exact ⟨_, by rw [← State.ea_uimm8]; rfl⟩

/-- The address of an access is a value of XLEN bits, and the access has at least one byte and at most 8. -/
structure MemOp.Fits (c : Config) (m : MemOp) : Prop where
  va : c.norm m.va = m.va
  pos : 0 < m.bytes
  le : m.bytes ≤ 8

/-- The instruction is a load, and is not illegal for the unit being off (44_fd.md R395). -/
def State.Loads (s : State) (i : Instr) (m : MemOp) : Prop :=
  s.loadOf i = some m ∨ ∃ f, s.fpLoadOf i = some (f, m) ∧ s.csr.mstatus.fs ≠ 0

/-- The instruction is a store of the low bytes of `v`, and is not illegal for the unit being off (44_fd.md R395). -/
def State.StoresValue (s : State) (i : Instr) (m : MemOp) (v : Word) : Prop :=
  s.storeOf i = some m ∧ v = s.rx m.reg ∨ s.fpStoreOf i = some m ∧ s.csr.mstatus.fs ≠ 0 ∧ v = s.rf m.reg

theorem State.Loads.fits (h : s.Loads i m) : m.Fits s.cfg := by
  obtain h | ⟨f, h, -⟩ := h
  · unfold State.loadOf at h
    split at h <;> cases h <;> exact ⟨s.cfg.norm_word _, by simp, by simp⟩
  · unfold State.fpLoadOf at h
    split at h <;> cases h <;> exact ⟨s.cfg.norm_word _, by simp, by simp⟩

theorem State.StoresValue.fits (h : s.StoresValue i m v) : m.Fits s.cfg := by
  obtain ⟨h, -⟩ | ⟨h, -⟩ := h
  · unfold State.storeOf at h
    split at h <;> cases h <;> exact ⟨s.cfg.norm_word _, by simp, by simp⟩
  · unfold State.fpStoreOf at h
    split at h <;> cases h <;> exact ⟨s.cfg.norm_word _, by simp, by simp⟩

/-! ### How they end -/

/-- With the unit on a floating-point instruction is not illegal (44_fd.md R395). -/
theorem fpGuard_of_on (bits : Word) (on : s.csr.mstatus.fs ≠ 0) (k : Result) : fpGuard bits s k = k := by
  obtain ⟨off, -⟩ | ⟨-, h⟩ := fpGuard_cases bits s k
  · exact absurd off on
  · exact h

theorem computes_of_read (h : s.loadOf i = some m) (hr : s.read .load m.va m.bytes = .ok v) :
    Computes i s m.len m.reg (s.cfg.word (m.value v.toNat)) := by
  obtain ⟨ext, hexec, hext⟩ := exec_of_loadOf h
  obtain ⟨e, tval, he, -⟩ | ⟨w, hw, hload⟩ := loadInt_cases m.len m.reg m.va m.bytes ext s
  · rw [hr] at he; cases he
  · rw [hr] at hw; cases hw
    exact put_computes (hexec.trans hload) (hext v)

theorem loadedF_of_read (h : s.fpLoadOf i = some (f, m)) (on : s.csr.mstatus.fs ≠ 0)
    (hr : s.read .load m.va m.bytes = .ok v) : ∃ t, exec i s = .next t ∧ LoadedF s t m.len f m.reg v := by
  obtain ⟨hbytes, bits, hexec⟩ := exec_of_fpLoadOf h
  rw [loadFp, fpGuard_of_on bits on, ← hbytes, hr] at hexec
  refine ⟨_, hexec, (s.wf m.reg (box f v)).after_eq m.len, State.count_minstret _, fun k => ?_, fun a => by simp, ?_⟩
  · exact (State.rf_congr _ _ (by simp) k).trans (s.rf_wf m.reg k _)
  · rw [State.ext_count]; rfl

theorem traps_of_read (h : s.Loads i m) (hr : s.read .load m.va m.bytes = .error (e, tval)) : Traps i s e tval := by
  obtain h | ⟨f, h, on⟩ := h
  · obtain ⟨ext, hexec, -⟩ := exec_of_loadOf h
    rw [loadInt, hr] at hexec
    exact hexec
  · obtain ⟨hbytes, bits, hexec⟩ := exec_of_fpLoadOf h
    rw [loadFp, fpGuard_of_on bits on, ← hbytes, hr] at hexec
    exact hexec

theorem exec_of_storesValue (h : s.StoresValue i m v) : exec i s = storeVal m.len m.va m.bytes v s := by
  obtain ⟨h, rfl⟩ | ⟨h, on, rfl⟩ := h
  · exact exec_of_storeOf h
  · obtain ⟨bits, hexec⟩ := exec_of_fpStoreOf h
    exact hexec.trans (fpGuard_of_on bits on _)

theorem exec_of_write (h : s.StoresValue i m v) (hw : s.write .store m.va m.bytes v = .ok u) :
    exec i s = .next { u.count with pc := u.after m.len } := by
  rw [exec_of_storesValue h, storeVal, hw]; rfl

theorem exec_of_write_error (h : s.StoresValue i m v) (hw : s.write .store m.va m.bytes v = .error (e, tval, u)) :
    exec i s = .next (u.take e tval) := by
  rw [exec_of_storesValue h, storeVal, hw]; rfl

/-! ### Main memory -/

theorem State.read_of_alignedAddr {k : Access} {va : Word} {n pa : Nat} (ha : s.alignedAddr k va n = .ok pa) :
    s.read k va n = .ok (s.physRead k va none pa n) := by
  rw [State.read_aligned (State.split_of_aligned ha), ha]

theorem State.write_of_alignedAddr {k : Access} {va : Word} {n pa : Nat} (ha : s.alignedAddr k va n = .ok pa) (v : Word) :
    s.write k va n v = .ok (s.physWrite pa n v) := by
  rw [State.write_aligned (State.split_of_aligned ha), ha]

/-- A store that leaves memory `mem` completes: it changes nothing else but `pc` and `minstret`. -/
theorem stores_of_write {mem : List Host.Cell} {pa : Nat} (h : s.StoresValue i m v)
    (hw : s.write .store m.va m.bytes v = .ok { s with mem := mem })
    (hmem : StoredBytes s { s with mem := mem } pa m.bytes v) : Stores i s m.len pa m.bytes v := by
  refine ⟨_, exec_of_write h hw, fun a => ?_, State.after_eq _ _, State.count_minstret _, ?_⟩
  · exact (congrArg (memGet · a) (State.count_mem _)).trans (hmem a)
  · rw [State.ext_count]

/-- Settles O17: a load that passes its checks reads the bytes of main memory. -/
theorem loadsReadMainMemory : Obligations.LoadsReadMainMemory := by
  unfold Obligations.LoadsReadMainMemory
  refine ⟨fun s i m h pa ha hm => ?_, fun s i f m h on pa ha hm => ?_⟩
  · have hc := computes_of_read h (State.read_of_alignedAddr ha)
    rw [State.physRead_main hm, memRead_toNat _ _ _ (State.Loads.fits (.inl h)).le] at hc
    exact hc
  · have hl := loadedF_of_read h on (State.read_of_alignedAddr ha)
    rw [State.physRead_main hm] at hl
    rwa [← memRead_toNat _ _ _ (State.Loads.fits (.inr ⟨f, h, on⟩)).le, BitVec.ofNat_toNat, BitVec.setWidth_eq]

/-- Settles O18: a store that passes its checks writes its bytes of main memory. -/
theorem storesWriteMainMemory : Obligations.StoresWriteMainMemory := by
  unfold Obligations.StoresWriteMainMemory
  have key : ∀ {s : State} {i : Instr} {m : MemOp} {v : Word}, s.StoresValue i m v → StoresMain i s m v := by
    intro s i m v h pa ha hm
    have hw := State.write_of_alignedAddr ha v
    rw [State.physWrite_main hm] at hw
    exact stores_of_write h hw (memGet_memWrite _ _ _ _)
  exact fun s i m => ⟨fun h => key (.inl ⟨h, rfl⟩), fun h on => key (.inr ⟨h, on, rfl⟩)⟩

end

end Machine

end Sys2Proof
end

section
/-! The checks of an access (20_memory.md R101, R105, R111, R112): which exception each raises, and that a physical address
answered has a region that allows the access. -/

namespace Sys2Proof.Machine

open Sys2Proof

section

variable {s : State} {k : Access} {va : Word} {n pa : Nat} {e : Exc}

/-! ### Translation -/

theorem State.translate_of_untranslated (h : s.untranslated k) : s.translate k va = .ok va.toNat := by
  refine if_neg ?_
  rintro ⟨hp, hm⟩
  obtain h | h := h
  · rw [h] at hp; cases hp
  · exact hm h

theorem State.leaf_error {level : Nat} {pte : Word} (h : s.leaf k va level pte = .error e) : e = pageFaultOf k := by
  by_cases hp : s.LeafPermits k level pte
  · rw [State.leaf_of_permits hp] at h; cases h
  · rw [State.leaf_of_not_permits hp] at h; cases h; rfl

theorem State.walk_error {left table : Nat} (h : s.walk k va left table = .error e) :
    e = accessFaultOf k ∨ e = pageFaultOf k := by
  induction left generalizing table with
  | zero => cases h; exact .inr (pageExc_eq k)
  | succ level ih =>
    by_cases hr : s.entryReadable va level table
    · rw [State.walk_of_readable hr] at h
      split at h
      · cases h; exact .inr (pageExc_eq k)
      · split at h
        · exact .inr (State.leaf_error h)
        · split at h
          · cases h; exact .inr (pageExc_eq k)
          · exact ih h
    · rw [State.walk_of_unreadable hr] at h; cases h
      exact .inl rfl

/-- A translation that fails raises the access fault or the page fault of the access (20_memory.md R112, R125). -/
theorem State.translate_error (h : s.translate k va = .error e) : e = accessFaultOf k ∨ e = pageFaultOf k := by
  unfold State.translate at h
  split at h
  · split at h
    · exact State.walk_error h
    · cases h; exact .inr (pageExc_eq k)
  · cases h

/-! ### Regions -/

/-- What the model asks of a region is what 20_memory.md R105 and 48_zc.md R691 (d) say. -/
theorem permits_iff_allows (k : Access) (r : Region) : permits k r = true ↔ Allows k r := by
  cases k <;> simp [permits, Allows, and_assoc]

/-- The region check answers a region that holds the bytes and allows the access, and in the block of the CLINT a
register. -/
theorem regionOk_iff {c : Config} :
    regionOk c k pa n = true ↔ ∃ r, findRegion c pa n = some r ∧ permits k r = true ∧
      (inClint c pa = false ∨ ∃ reg, clintReg c (pa - c.clintBase) n = some reg) := by
  unfold regionOk
  cases findRegion c pa n with
  | none => simp
  | some r => simp [Option.isSome_iff_exists]

theorem findRegion_some {c : Config} {r : Region} (h : findRegion c pa n = some r) :
    r ∈ c.regions ∧ r.base ≤ pa ∧ pa + n ≤ r.base + r.size := by
  have hholds := List.find?_some h
  simp only [Bool.and_eq_true, decide_eq_true_eq] at hholds
  exact ⟨List.mem_of_find?_eq_some h, hholds⟩

theorem regionOk_of_noRegion (h : s.noRegion k pa n) : regionOk s.cfg k pa n = false := by
  by_contra hok
  obtain ⟨r, hr, hp, -⟩ := regionOk_iff.1 (Bool.eq_true_of_not_eq_false hok)
  obtain ⟨hmem, hbase, hend⟩ := findRegion_some hr
  exact h r hmem hbase hend ((permits_iff_allows k r).1 hp)

/-! ### The checks together -/

theorem State.physAddr_cases (s : State) (k : Access) (va : Word) (n : Nat) :
    (∃ e, s.translate k va = .error e ∧ s.physAddr k va n = .error e) ∨
      (∃ pa, s.translate k va = .ok pa ∧ regionOk s.cfg k pa n = false ∧ s.physAddr k va n = .error (accessFaultOf k)) ∨
      ∃ pa, s.translate k va = .ok pa ∧ regionOk s.cfg k pa n = true ∧ s.physAddr k va n = .ok pa := by
  unfold State.physAddr
  rw [accessExc_eq]
  cases s.translate k va with
  | error e => simp
  | ok pa => cases hr : regionOk s.cfg k pa n <;> simp [hr]

/-- An access answers a physical address only where translation gives it and the region check passes. -/
theorem State.alignedAddr_ok (h : s.alignedAddr k va n = .ok pa) :
    va.toNat % n = 0 ∧ s.translate k va = .ok pa ∧ regionOk s.cfg k pa n = true := by
  obtain ⟨-, h'⟩ | ⟨e, -, -, h'⟩ | ⟨pa', -, -, -, h'⟩ | ⟨pa', hal, ht, hr, h'⟩ := s.alignedAddr_cases k va n <;>
    rw [h] at h' <;> cases h'
  exact ⟨hal, ht, hr⟩

/-- Which exception the checks raise (20_memory.md R112). -/
theorem State.alignedAddr_error (h : s.alignedAddr k va n = .error e) :
    va.toNat % n ≠ 0 ∧ e = misalignedExc k ∨ va.toNat % n = 0 ∧ (e = accessFaultOf k ∨ e = pageFaultOf k) := by
  obtain ⟨ha, h'⟩ | ⟨e', ha, ht, h'⟩ | ⟨pa, ha, -, -, h'⟩ | ⟨pa, -, -, -, h'⟩ := s.alignedAddr_cases k va n <;>
    rw [h] at h' <;> cases h'
  · exact .inl ⟨ha, rfl⟩
  · exact .inr ⟨ha, State.translate_error ht⟩
  · exact .inr ⟨ha, .inl (accessExc_eq k)⟩

theorem State.alignedAddr_of_misaligned (ha : va.toNat % n ≠ 0) : s.alignedAddr k va n = .error (misalignedExc k) :=
  if_neg ha

theorem State.alignedAddr_of_translate_error (ha : va.toNat % n = 0) (ht : s.translate k va = .error e) :
    s.alignedAddr k va n = .error e := by
  simp [State.alignedAddr, State.physAddr, ha, ht]

theorem State.alignedAddr_of_region (ha : va.toNat % n = 0) (ht : s.translate k va = .ok pa) :
    s.alignedAddr k va n = if regionOk s.cfg k pa n then .ok pa else .error (accessExc k) := by
  simp [State.alignedAddr, State.physAddr, ha, ht]

/-- Settles O20, by the first check that fails. -/
theorem accessChecksComeInOrder : Obligations.AccessChecksComeInOrder := by
  unfold Obligations.AccessChecksComeInOrder
  refine ⟨fun s k va n => ⟨State.alignedAddr_of_misaligned, fun ha e => State.alignedAddr_of_translate_error ha,
    fun ha pa ht => ⟨fun hr => ?_, fun hr => ?_⟩⟩, fun s k va h => State.translate_of_untranslated h⟩
  · rw [State.alignedAddr_of_region ha ht, hr]; rfl
  · rw [State.alignedAddr_of_region ha ht, hr]; rfl

end

end Sys2Proof.Machine
end

section
/-! The atomic instructions by their tables (`amoOf`, `lrOf`, `scOf`; 43_a.md R353 to R381). -/

namespace Sys2Proof.Machine

open Sys2Proof

section

variable {s : State} {i : Instr} {n : Nat} {rd rs1 rs2 : Reg}

/-! ### The operators -/

/-- An operator on words of `n` bytes computes what an operator on numbers says. -/
def AmoMeans (n : Nat) (op : BitVec (8 * n) → BitVec (8 * n) → BitVec (8 * n)) (f : Nat → Nat → Nat) : Prop :=
  ∀ x y, (op x y).toNat = f x.toNat y.toNat

theorem toInt_eq_signedOf (x : BitVec (8 * n)) : x.toInt = signedOf n x.toNat := BitVec.toInt_eq_toNat_bmod x

/-- The nine operators on words (43_a.md R362 to R370), in the order of `amoOps`. -/
def amoWordOps (n : Nat) : List (BitVec (8 * n) → BitVec (8 * n) → BitVec (8 * n)) :=
  [fun _ v => v, (· + ·), (· ^^^ ·), (· &&& ·), (· ||| ·), fun t v => if t.slt v then t else v,
    fun t v => if v.slt t then t else v, fun t v => if t.ult v then t else v, fun t v => if v.ult t then t else v]

theorem amoWordOps_means (n : Nat) : List.Forall₂ (AmoMeans n) (amoWordOps n) (amoOps n) := by
  have choose : ∀ {p : BitVec (8 * n) → BitVec (8 * n) → Bool} {q : Nat → Nat → Prop} [∀ a b, Decidable (q a b)],
      (∀ x y, p x y = true ↔ q x.toNat y.toNat) →
      AmoMeans n (fun t v => if p t v then t else v) (fun t v => if q t v then t else v) := by
    intro p q _ h x y
    by_cases hq : q x.toNat y.toNat
    · simp only [(h x y).2 hq, hq, if_true]
    · simp only [mt (h x y).1 hq, hq, if_false, Bool.false_eq_true]
  have slt : ∀ x y : BitVec (8 * n), x.slt y = true ↔ signedOf n x.toNat < signedOf n y.toNat := fun x y => by
    rw [BitVec.slt_iff_toInt_lt, toInt_eq_signedOf, toInt_eq_signedOf]
  have ult : ∀ x y : BitVec (8 * n), x.ult y = true ↔ x.toNat < y.toNat := fun x y => BitVec.ult_iff_lt
  exact .cons (fun _ _ => rfl) <| .cons BitVec.toNat_add <| .cons BitVec.toNat_xor <| .cons BitVec.toNat_and <|
    .cons BitVec.toNat_or <| .cons (choose slt) <| .cons (choose fun x y => slt y x) <| .cons (choose ult) <|
    .cons (choose fun x y => ult y x) .nil

theorem amoOps_means (n j : Nat) (hj : j < 9) : AmoMeans n ((amoWordOps n)[j]'hj) ((amoOps n)[j]'hj) :=
  (amoWordOps_means n).get hj hj

/-- The operator of the model on words is the one of the table on numbers, the source cut to the width of the access. -/
def OpMeans (n : Nat) (op : Word → Word → Word) (f : Nat → Nat → Nat) : Prop :=
  ∀ t v, t.toNat < 2 ^ (8 * n) → op t v = BitVec.ofNat 64 (f t.toNat (v.toNat % 2 ^ (8 * n)))

theorem AmoMeans.onLow32 {op : BitVec 32 → BitVec 32 → BitVec 32} {f : Nat → Nat → Nat} (h : AmoMeans 4 op f) :
    OpMeans 4 (onLow32 op) f := by
  intro t v ht
  have hop := h (t.setWidth 32) (v.setWidth 32)
  rw [BitVec.toNat_setWidth, BitVec.toNat_setWidth, Nat.mod_eq_of_lt ht] at hop
  rw [Machine.onLow32, ← hop]
  exact BitVec.eq_of_toNat_eq (by simp)

theorem AmoMeans.double {op : Word → Word → Word} {f : Nat → Nat → Nat} (h : AmoMeans 8 op f) : OpMeans 8 op f := by
  intro t v _
  rw [Nat.mod_eq_of_lt v.isLt, ← h t v, BitVec.ofNat_toNat, BitVec.setWidth_eq]

/-! ### The tables -/

/-- What a load of `n` bytes of an atomic instruction writes to the register: the value sign-extended (43_a.md R353,
R357). -/
def SignExtends (c : Config) (n : Nat) (ext : Word → Word) : Prop :=
  ∀ v, c.norm (ext v) = c.word (signedOf n v.toNat)

theorem signExtends_word (c : Config) : SignExtends c 4 sext32 := fun v =>
  c.norm_signExtend_setWidth v (l := 32) (by decide)

theorem signExtends_double (c : Config) : SignExtends c 8 id := fun v => by
  have hv := c.norm_signExtend_setWidth v (l := 8 * 8) le_rfl
  rwa [BitVec.setWidth_eq, BitVec.signExtend_eq] at hv

theorem exec_of_amoOf {a : AmoOp} (h : amoOf i = some a) :
    a.bytes ≤ 8 ∧ ∃ ext op, exec i s = amo a.rd (s.rx a.rs1) a.bytes ext op (s.rx a.rs2) s ∧
      SignExtends s.cfg a.bytes ext ∧ OpMeans a.bytes op a.op := by
  have word := signExtends_word s.cfg
  have double := signExtends_double s.cfg
  unfold amoOf at h
  split at h <;> cases h
  case h_1 => exact ⟨by simp, sext32, _, rfl, word, (amoOps_means 4 0 (by decide)).onLow32⟩
  case h_2 => exact ⟨by simp, sext32, _, rfl, word, (amoOps_means 4 1 (by decide)).onLow32⟩
  case h_3 => exact ⟨by simp, sext32, _, rfl, word, (amoOps_means 4 2 (by decide)).onLow32⟩
  case h_4 => exact ⟨by simp, sext32, _, rfl, word, (amoOps_means 4 3 (by decide)).onLow32⟩
  case h_5 => exact ⟨by simp, sext32, _, rfl, word, (amoOps_means 4 4 (by decide)).onLow32⟩
  case h_6 => exact ⟨by simp, sext32, _, rfl, word, (amoOps_means 4 5 (by decide)).onLow32⟩
  case h_7 => exact ⟨by simp, sext32, _, rfl, word, (amoOps_means 4 6 (by decide)).onLow32⟩
  case h_8 => exact ⟨by simp, sext32, _, rfl, word, (amoOps_means 4 7 (by decide)).onLow32⟩
  case h_9 => exact ⟨by simp, sext32, _, rfl, word, (amoOps_means 4 8 (by decide)).onLow32⟩
  case h_10 => exact ⟨le_rfl, id, fun _ v => v, rfl, double, (amoOps_means 8 0 (by decide)).double⟩
  case h_11 => exact ⟨le_rfl, id, _, rfl, double, (amoOps_means 8 1 (by decide)).double⟩
  case h_12 => exact ⟨le_rfl, id, _, rfl, double, (amoOps_means 8 2 (by decide)).double⟩
  case h_13 => exact ⟨le_rfl, id, _, rfl, double, (amoOps_means 8 3 (by decide)).double⟩
  case h_14 => exact ⟨le_rfl, id, _, rfl, double, (amoOps_means 8 4 (by decide)).double⟩
  case h_15 => exact ⟨le_rfl, id, fun t v => if t.slt v then t else v, rfl, double,
    (amoOps_means 8 5 (by decide)).double⟩
  case h_16 => exact ⟨le_rfl, id, fun t v => if v.slt t then t else v, rfl, double,
    (amoOps_means 8 6 (by decide)).double⟩
  case h_17 => exact ⟨le_rfl, id, fun t v => if t.ult v then t else v, rfl, double,
    (amoOps_means 8 7 (by decide)).double⟩
  case h_18 => exact ⟨le_rfl, id, fun t v => if v.ult t then t else v, rfl, double,
    (amoOps_means 8 8 (by decide)).double⟩

theorem exec_of_lrOf (h : lrOf i = some (rd, rs1, n)) :
    n ≤ 8 ∧ ∃ ext, exec i s = loadReserved rd (s.rx rs1) n ext s ∧ SignExtends s.cfg n ext := by
  unfold lrOf at h
  split at h <;> cases h
  · exact ⟨by decide, sext32, rfl, signExtends_word s.cfg⟩
  · exact ⟨le_rfl, id, rfl, signExtends_double s.cfg⟩

theorem exec_of_scOf (h : scOf i = some (rd, rs1, rs2, n)) :
    exec i s = storeConditional rd (s.rx rs1) n (s.rx rs2) s := by
  unfold scOf at h
  split at h <;> cases h <;> rfl

end

end Sys2Proof.Machine
end

section
/-! An access that fails its checks (20_memory.md R112, 60_exceptions.md R721): the exception it raises, for every
instruction that makes a data access, for pushes and pops, for table reads and for fetches. -/

namespace Sys2Proof.Machine

open Sys2Proof

section

variable {s : State} {i : Instr} {k : Access} {va : Word} {n : Nat} {e : Exc}

/-! ### The accesses of the instructions -/

/-- The one data access an instruction makes, where the unit it needs is on. -/
inductive State.Makes (s : State) (i : Instr) : Access → Word → Nat → Prop
  | load {m : MemOp} (h : s.Loads i m) : s.Makes i .load m.va m.bytes
  | store {m : MemOp} {v : Word} (h : s.StoresValue i m v) : s.Makes i .store m.va m.bytes
  | amo {a : AmoOp} (h : amoOf i = some a) : s.Makes i .amo (s.rx a.rs1) a.bytes
  | lr {rd rs1 : Reg} {n : Nat} (h : lrOf i = some (rd, rs1, n)) : s.Makes i .lr (s.rx rs1) n
  | sc {rd rs1 rs2 : Reg} {n : Nat} (h : scOf i = some (rd, rs1, rs2, n)) : s.Makes i .sc (s.rx rs1) n

theorem State.makes_of_accessOf (h : s.accessOf i = some (k, va, n)) (on : s.fpAccess i → s.csr.mstatus.fs ≠ 0) :
    s.Makes i k va n := by
  unfold State.accessOf at h
  split at h <;> cases h
  · exact .load (.inl ‹_›)
  · exact .store (.inl ⟨‹_›, rfl⟩)
  · rename_i f m hf _ _
    exact .load (.inr ⟨f, hf, on (.inl (by rw [hf]; rfl))⟩)
  · rename_i m hf _ _ _
    exact .store (.inr ⟨hf, on (.inr (by rw [hf]; rfl)), rfl⟩)
  · exact .amo ‹_›
  · exact .lr ‹_›
  · exact .sc ‹_›

/-! ### What the checks raise -/

/-- The access is not split and fails its checks, the first of them with this exception (20_memory.md R101, R111,
R112). -/
def State.FailsChecks (s : State) (k : Access) (va : Word) (n : Nat) (e : Exc) : Prop :=
  s.split k va n = false ∧ s.alignedAddr k va n = .error e

theorem misalignedExc_eq (h : k ∉ [Access.fetch, .table]) : misalignedExc k = misalignedOf k := by
  revert h; cases k <;> decide

theorem State.failsChecks_of_misaligned (ha : va.toNat % n ≠ 0) (hk : s.cfg.misaligned = .trap ∨ splits k = false)
    (hd : k ∉ [Access.fetch, .table]) : s.FailsChecks k va n (misalignedOf k) := by
  refine ⟨?_, (if_neg ha).trans (congrArg _ (misalignedExc_eq hd))⟩
  obtain h | h := hk
  · simp [State.split, h]
  · exact State.split_of_kind h va n

theorem State.failsChecks_of_alignedAddr (ha : va.toNat % n = 0) (h : s.alignedAddr k va n = .error e) :
    s.FailsChecks k va n e := ⟨by simp [State.split, ha], h⟩

theorem State.failsChecks_of_translate (ha : va.toNat % n = 0) (ht : s.translate k va = .error e) :
    s.FailsChecks k va n e :=
  State.failsChecks_of_alignedAddr ha (State.alignedAddr_of_translate_error ha ht)

theorem State.failsChecks_of_region {pa : Nat} (ha : va.toNat % n = 0) (ht : s.translate k va = .ok pa)
    (hr : s.noRegion k pa n ∨ regionOk s.cfg k pa n = false) : s.FailsChecks k va n (accessFaultOf k) := by
  have hr := hr.elim regionOk_of_noRegion id
  refine State.failsChecks_of_alignedAddr ha ((State.alignedAddr_of_region ha ht).trans ?_)
  rw [hr, accessExc_eq]; rfl

/-- Each way an access that is not split can fail. -/
theorem State.failsChecks_of (hd : k ∉ [Access.fetch, .table])
    (h : va.toNat % n ≠ 0 ∧ s.cfg.misaligned = .trap ∧ e = misalignedOf k ∨
      va.toNat % n = 0 ∧ s.translate k va = .error e ∨
      ∃ pa, va.toNat % n = 0 ∧ s.translate k va = .ok pa ∧ (s.noRegion k pa n ∨ regionOk s.cfg k pa n = false) ∧
        e = accessFaultOf k) : s.FailsChecks k va n e := by
  obtain ⟨ha, hm, rfl⟩ | ⟨ha, ht⟩ | ⟨pa, ha, ht, hr, rfl⟩ := h
  · exact State.failsChecks_of_misaligned ha (.inl hm) hd
  · exact State.failsChecks_of_translate ha ht
  · exact State.failsChecks_of_region ha ht hr

theorem State.FailsChecks.alignedAddr (h : s.FailsChecks k va n e) : s.alignedAddr k va n = .error e := h.2

/-- The three exceptions of a kind of access (20_memory.md R112). -/
theorem State.FailsChecks.mem (h : s.FailsChecks k va n e) (hd : k ∉ [Access.fetch, .table]) :
    e ∈ [misalignedOf k, accessFaultOf k, pageFaultOf k] := by
  obtain ⟨-, rfl⟩ | ⟨-, rfl | rfl⟩ := State.alignedAddr_error h.alignedAddr
  · simp [misalignedExc_eq hd]
  · simp
  · simp

theorem State.FailsChecks.read (h : s.FailsChecks k va n e) : s.read k va n = .error (e, va) := by
  obtain ⟨hsplit, ha⟩ := h
  rw [State.read_aligned hsplit, ha]

theorem State.FailsChecks.write (h : s.FailsChecks k va n e) (v : Word) : s.write k va n v = .error (e, va, s) := by
  obtain ⟨hsplit, ha⟩ := h
  rw [State.write_aligned hsplit, ha]

/-! ### The instructions -/

/-- An instruction whose access fails its checks writes nothing and raises the exception (20_memory.md R112). -/
theorem State.Makes.traps (h : s.Makes i k va n) (hf : s.FailsChecks k va n e) : Traps i s e va := by
  cases h with
  | load h => exact traps_of_read h hf.read
  | store h => exact exec_of_write_error h (hf.write _)
  | amo h =>
    obtain ⟨-, ext, op, hexec, -⟩ := exec_of_amoOf (s := s) h
    rw [Machine.amo, hf.alignedAddr] at hexec
    exact hexec
  | lr h =>
    obtain ⟨-, ext, hexec, -⟩ := exec_of_lrOf (s := s) h
    rw [loadReserved, hf.read] at hexec
    exact hexec
  | sc h =>
    have hexec := exec_of_scOf (s := s) h
    rw [storeConditional, hf.alignedAddr] at hexec
    exact hexec

theorem State.Makes.notMem (h : s.Makes i k va n) : k ∉ [Access.fetch, .table] := by cases h <;> decide

theorem State.Makes.splits_eq_false (h : s.Makes i k va n) (hk : k = .lr ∨ k = .sc ∨ k = .amo) : splits k = false := by
  obtain rfl | rfl | rfl := hk <;> rfl

/-! ### Pushes and pops -/

section

variable {rlist : BitVec 4} {spimm : BitVec 2}

theorem listRegs_eq_cons (h : 4 ≤ rlist.toNat) : ∃ r l, listRegs rlist = r :: l := by
  refine List.exists_cons_of_length_pos ?_
  rw [listRegs_length h, listCount]
  split <;> omega

theorem State.ea_pushTop (s : State) : s.ea State.sp (-BitVec.ofNat 64 s.cfg.xlen.bytes) = s.slot s.pushTop 0 := by
  have hoff : -BitVec.ofNat 64 s.cfg.xlen.bytes = BitVec.ofInt 64 (-s.cfg.xlen.bytes) := by
    rw [BitVec.ofInt_neg, BitVec.ofInt_natCast]
  rw [s.ea_eq_addr State.sp hoff, State.addr, State.slot, State.pushTop]
  congr 1; push_cast; ring

theorem State.popStart_eq (s : State) (rlist : BitVec 4) (spimm : BitVec 2) :
    s.popStart rlist spimm = s.slot (s.popTop rlist spimm) 0 := by
  have hoff : stackAdj s.cfg rlist spimm - BitVec.ofNat 64 s.cfg.xlen.bytes =
      BitVec.ofInt 64 ((stackAdj s.cfg rlist spimm).toNat - s.cfg.xlen.bytes) := by
    rw [Int.sub_eq_add_neg, BitVec.ofInt_add, BitVec.ofInt_neg, ← Config.eq_ofInt, BitVec.ofInt_natCast,
      BitVec.sub_eq_add_neg]
  rw [State.popStart, s.ea_eq_addr State.sp hoff, State.addr, State.slot, State.popTop]
  congr 1; push_cast; ring

theorem cm_push_traps (h : 4 ≤ rlist.toNat) (hf : s.FailsChecks .push (s.slot s.pushTop 0) s.cfg.xlen.bytes e) :
    Traps (.cm_push rlist spimm) s e (s.slot s.pushTop 0) := by
  obtain ⟨r, l, hl⟩ := listRegs_eq_cons h
  show execCmPush rlist spimm s = _
  rw [execCmPush, hl, s.ea_pushTop, pushAll, hf.write]
  rfl

theorem popThen_traps (h : 4 ≤ rlist.toNat)
    (hf : s.FailsChecks .pop (s.slot (s.popTop rlist spimm) 0) s.cfg.xlen.bytes e) (k : State → Result) :
    popThen rlist spimm s k = .next (s.take e (s.slot (s.popTop rlist spimm) 0)) := by
  obtain ⟨r, l, hl⟩ := listRegs_eq_cons h
  rw [popThen, hl, s.popStart_eq, popAll, hf.read]
  rfl

end

/-! ### Table reads -/

theorem toNat_mod_of_low_bits {w : Word} {l : Nat} (h : ∀ j < l, w.getLsbD j = false) : w.toNat % 2 ^ l = 0 := by
  refine Nat.eq_of_testBit_eq fun j => ?_
  rw [Nat.testBit_mod_two_pow, BitVec.testBit_toNat, Nat.zero_testBit]
  by_cases hj : j < l
  · simp [h j hj]
  · simp [hj]

theorem exec_cm_jt (index : BitVec 5) (s : State) : exec (.cm_jt index) s = tableJump index.toNat id s := rfl

theorem exec_cm_jalt (index : BitVec 8) (s : State) :
    exec (.cm_jalt index) s = tableJump index.toNat (fun t => t.wx State.ra (s.after 2)) s := rfl

/-- The entries of the table are aligned (48_zc.md R699). -/
theorem State.tableAddr_mod (s : State) (index : Nat) : (s.tableAddr index).toNat % s.cfg.xlen.bytes = 0 := by
  have hbase : (s.csr.jvt &&& ~~~63#64).toNat % 2 ^ 6 = 0 := toNat_mod_of_low_bits fun j hj => by
    rw [BitVec.getLsbD_and, BitVec.getLsbD_not]
    interval_cases j <;> simp
  rw [State.tableAddr, Config.norm_toNat, BitVec.toNat_add, BitVec.toNat_ofNat]
  cases s.cfg.xlen <;> simp only [Xlen.bits, Xlen.bytes] <;> omega

theorem State.tableAddr_eq (s : State) (index : Nat) :
    s.tableAddr index = s.cfg.word ((s.csr.jvt &&& ~~~63#64).toNat + index * s.cfg.xlen.bytes) := by
  refine s.cfg.norm_of_modEq (i := (s.csr.jvt &&& ~~~63#64).toNat + (index * s.cfg.xlen.bytes : Nat)) ?_ ?_
  · rw [BitVec.ofInt_add, ← Config.eq_ofInt, BitVec.ofInt_natCast]
  · push_cast; rfl

theorem tableJump_traps {index : Nat} {link : State → State} (hexec : exec i s = tableJump index link s)
    (hf : s.FailsChecks .table (s.tableAddr index) s.cfg.xlen.bytes e) : Traps i s e (s.tableAddr index) := by
  rw [tableJump, hf.read] at hexec
  exact hexec

/-- A table read that fails raises the exceptions of a fetch (48_zc.md R699). -/
theorem tableJump_fails {index : Nat} {link : State → State} (hexec : exec i s = tableJump index link s)
    (hva : va = s.tableAddr index) :
    (∀ e, s.translate .table va = .error e →
      (e = .instructionAccessFault ∨ e = .instructionPageFault) ∧ Traps i s e va) ∧
    ∀ pa, s.translate .table va = .ok pa →
      s.noRegion .table pa s.cfg.xlen.bytes ∨ regionOk s.cfg .table pa s.cfg.xlen.bytes = false →
      Traps i s .instructionAccessFault va := by
  subst hva
  have ha := s.tableAddr_mod index
  exact ⟨fun e ht => ⟨State.translate_error ht, tableJump_traps hexec (State.failsChecks_of_translate ha ht)⟩,
    fun pa ht hr => tableJump_traps hexec (State.failsChecks_of_region ha ht hr)⟩

/-! ### Fetches -/

theorem State.fetch_fails (h : s.FailsChecks .fetch s.pc 2 e) : s.fetch = .error (e, s.pc) := by
  rw [State.fetch, h.read]

/-- Settles O21, by the first check that fails and the instruction that makes the access. -/
theorem failedAccessesTrap : Obligations.FailedAccessesTrap := by
  unfold Obligations.FailedAccessesTrap
  refine ⟨rfl, fun s i k va n h on => ?_, fun s rlist spimm h4 => ⟨fun e hf => ?_, fun e hf => ?_⟩,
    fun s index index8 => ⟨tableJump_fails (exec_cm_jt index s) (s.tableAddr_eq _).symm,
      tableJump_fails (exec_cm_jalt index8 s) (s.tableAddr_eq _).symm⟩,
     fun s va ha => ⟨fun e he => ?_, fun pa ht hr => ?_⟩⟩
  · have hm := State.makes_of_accessOf h on
    refine ⟨fun ha hk => ?_, fun ha => ⟨fun e ht => ⟨State.translate_error ht, ?_⟩, fun pa ht hr => ?_⟩⟩
    · exact hm.traps (State.failsChecks_of_misaligned ha (hk.imp_right hm.splits_eq_false) hm.notMem)
    · exact hm.traps (State.failsChecks_of_translate ha ht)
    · exact hm.traps (State.failsChecks_of_region ha ht hr)
  · have hf := State.failsChecks_of (by decide) hf
    exact ⟨hf.mem (by decide), cm_push_traps h4 hf⟩
  · have hf := State.failsChecks_of (by decide) hf
    exact ⟨hf.mem (by decide), popThen_traps h4 hf (retire 2), popThen_traps h4 hf fun t => retireAt t.retTarget t,
      popThen_traps h4 hf fun t => retireAt t.retTarget (t.wx 10 0)⟩
  · have hf := State.failsChecks_of_alignedAddr ha he
    obtain ⟨hal, -⟩ | ⟨-, hexc⟩ := State.alignedAddr_error he
    · exact absurd ha hal
    · exact ⟨hexc, fun hpc => by subst hpc; exact State.fetch_fails hf⟩
  · exact (State.failsChecks_of_region ha ht (.inl hr)).alignedAddr

end

end Sys2Proof.Machine
end

section
/-! Accesses outside main memory (20_memory.md R114) and the registers of the core-local interruptor (60_exceptions.md R770
to R772). -/

namespace Sys2Proof.Machine

open Sys2Proof

section

variable {s : State} {i : Instr} {k : Access} {va : Word} {n pa : Nat} {v : Word}

/-! ### Physical accesses outside main memory -/

/-- A register of the CLINT is named by 4 bytes or by 8 (60_exceptions.md R770). -/
theorem width_of_clintReg {c : Config} {off : Nat} {r : ClintReg} (h : clintReg c off n = some r) : n = 4 ∨ n = 8 := by
  unfold clintReg at h
  split at h
  next h4 => exact .inl h4.1
  next =>
    split at h
    next h8 => exact .inr h8.1
    next => cases h

/-- A physical read gives a value of the width read. -/
theorem State.physRead_lt (s : State) (k : Access) (va : Word) (l : Option Nat) (pa n : Nat) :
    (s.physRead k va l pa n).toNat < 2 ^ (8 * n) := by
  unfold State.physRead
  split
  · split
    · rename_i r hr
      obtain rfl | rfl := width_of_clintReg hr
      · exact clintGet_lt hr _
      · exact BitVec.isLt _
    · exact Nat.two_pow_pos _
  · split
    · exact memRead_lt _ _ n
    · exact deviceRead_lt _ n

/-- An access to the block of the CLINT that passes its checks names a register (20_memory.md R105). -/
theorem State.clintReg_of_alignedAddr (ha : s.alignedAddr k va n = .ok pa) (hc : inClint s.cfg pa = true) :
    ∃ r, clintReg s.cfg (pa - s.cfg.clintBase) n = some r := by
  obtain ⟨-, -, hok⟩ := State.alignedAddr_ok ha
  obtain ⟨-, -, -, hout | hreg⟩ := regionOk_iff.1 hok
  · rw [hc] at hout; cases hout
  · exact hreg

/-- What a read outside main memory gives: a register of the CLINT, or what the device answers. -/
theorem State.deviceValue_physRead (ha : s.alignedAddr k va n = .ok pa) (hm : ¬ s.inMain pa n) (hn : n ≤ 8) :
    s.DeviceValue k va pa n (s.physRead k va none pa n) := by
  have hlt := s.physRead_lt k va none pa n
  unfold State.DeviceValue
  split
  next hc =>
    obtain ⟨r, hr⟩ := State.clintReg_of_alignedAddr ha hc
    exact ⟨r, hr, by simp [State.physRead, hc, hr]⟩
  next hc =>
    have hmain : ¬ isMain s.cfg pa n = true := fun h => hm ⟨h, by simpa using hc⟩
    refine ⟨hlt, fun j hj => BitVec.eq_of_getLsbD_eq fun l hl => ?_⟩
    rw [State.physRead, if_neg hc, if_neg hmain, BitVec.getLsbD_extractLsb', getLsbD_deviceRead _ _ _ hn, decide_eq_true hl,
      decide_eq_true (show 8 * j + l < 8 * n by omega), show (8 * j + l) / 8 = j by omega,
      show (8 * j + l) % 8 = l by omega]
    rfl

/-- What a write outside main memory does: a register of the CLINT takes the value, and nothing else changes. -/
theorem State.deviceStored_physWrite (ha : s.alignedAddr k va n = .ok pa) (hm : ¬ s.inMain pa n) (v : Word) :
    ∃ c, s.physWrite pa n v = { s with clint := c } ∧ s.DeviceStored c pa n v := by
  unfold State.DeviceStored
  split
  next hc =>
    obtain ⟨r, hr⟩ := State.clintReg_of_alignedAddr ha hc
    exact ⟨_, by simp only [State.physWrite, if_pos hc, hr], r, hr, rfl⟩
  next hc =>
    have hmain : ¬ isMain s.cfg pa n = true := fun h => hm ⟨h, by simpa using hc⟩
    exact ⟨s.clint, by rw [State.physWrite, if_neg hc, if_neg hmain], rfl⟩

/-! ### The instructions -/

theorem WroteX.clint {u t : State} {next : Word} {rd : Reg} (h : WroteX u t next rd v) : t.clint = u.clint :=
  by rw [h.rest]

theorem WroteX.resv {u t : State} {next : Word} {rd : Reg} (h : WroteX u t next rd v) : t.resv = u.resv :=
  by rw [h.rest]

theorem amo_device {a : AmoOp} (h : amoOf i = some a) (ha : s.alignedAddr .amo (s.rx a.rs1) a.bytes = .ok pa)
    (hm : ¬ s.inMain pa a.bytes) :
    ∃ v t, s.DeviceValue .amo (s.rx a.rs1) pa a.bytes v ∧ exec i s = .next t ∧
      s.DeviceStored t.clint pa a.bytes (BitVec.ofNat 64 (a.op v.toNat ((s.rx a.rs2).toNat % 2 ^ (8 * a.bytes)))) ∧
      WroteX { s with clint := t.clint } t (s.nextPc 4) a.rd (s.cfg.word (signedOf a.bytes v.toNat)) := by
  obtain ⟨hn, ext, op, hexec, hext, hop⟩ := exec_of_amoOf (s := s) h
  obtain ⟨e, he, -⟩ | ⟨pa', hpa, hamo⟩ := amo_cases a.rd (s.rx a.rs1) a.bytes ext op (s.rx a.rs2) s
  · rw [ha] at he; cases he
  rw [ha] at hpa; cases hpa
  have hv := State.deviceValue_physRead ha hm hn
  rw [hop _ _ (s.physRead_lt ..)] at hamo
  generalize s.physRead .amo (s.rx a.rs1) none pa a.bytes = v at *
  obtain ⟨c, hwrite, hstored⟩ := State.deviceStored_physWrite ha hm
    (BitVec.ofNat 64 (a.op v.toNat ((s.rx a.rs2).toNat % 2 ^ (8 * a.bytes))))
  rw [hwrite] at hamo
  obtain ⟨t, ht, hwrote⟩ := put_wrote 4 a.rd (ext v) { s with clint := c }
  have hclint : t.clint = c := hwrote.clint
  refine ⟨v, t, hv, hexec.trans (hamo.trans ht), hclint ▸ hstored, ?_⟩
  rw [hclint, ← hext v]
  exact hwrote

theorem lr_device {rd rs1 : Reg} (h : lrOf i = some (rd, rs1, n)) (ha : s.alignedAddr .lr (s.rx rs1) n = .ok pa)
    (hm : ¬ s.inMain pa n) :
    ∃ v t, s.DeviceValue .lr (s.rx rs1) pa n v ∧ exec i s = .next t ∧ t.resv = some (s.rx rs1, n) ∧
      WroteX { s with resv := t.resv } t (s.nextPc 4) rd (s.cfg.word (signedOf n v.toNat)) := by
  obtain ⟨hn, ext, hexec, hext⟩ := exec_of_lrOf (s := s) h
  obtain ⟨e, he, -⟩ | ⟨pa', hpa, hlr⟩ := loadReserved_cases rd (s.rx rs1) n ext s
  · rw [ha] at he; cases he
  rw [ha] at hpa; cases hpa
  obtain ⟨t, ht, hwrote⟩ :=
    put_wrote 4 rd (ext (s.physRead .lr (s.rx rs1) none pa n)) { s with resv := some (s.rx rs1, n) }
  refine ⟨_, t, State.deviceValue_physRead ha hm hn, hexec.trans (hlr.trans ht), hwrote.resv, ?_⟩
  rw [show t.resv = _ from hwrote.resv, ← hext]
  exact hwrote

/-- The reservation covers the bytes when they lie in its granule (20_memory.md R141). -/
theorem State.reserved_iff (s : State) (va : Word) (n : Nat) :
    s.reserved va n = true ↔ ∃ a m, s.resv = some (a, m) ∧ va.toNat / s.cfg.granule = a.toNat / s.cfg.granule ∧
      (va.toNat + n - 1) / s.cfg.granule = a.toNat / s.cfg.granule := by
  unfold State.reserved
  cases s.resv with
  | none => simp
  | some r =>
    obtain ⟨a, m⟩ := r
    simp

theorem sc_device {rd rs1 rs2 : Reg} (h : scOf i = some (rd, rs1, rs2, n))
    (ha : s.alignedAddr .sc (s.rx rs1) n = .ok pa) (hm : ¬ s.inMain pa n) :
    ∃ t, exec i s = .next t ∧
      (s.reserved (s.rx rs1) n = true ∧ Config.scFails s.draws = false →
        s.DeviceStored t.clint pa n (s.rx rs2) ∧
        WroteX { s with resv := none, clint := t.clint } t (s.nextPc 4) rd 0) ∧
      (¬ s.reserved (s.rx rs1) n = true ∨ Config.scFails s.draws = true →
        WroteX { s with resv := none } t (s.nextPc 4) rd 1) := by
  have hnorm0 : s.cfg.norm 0 = 0 := s.cfg.norm_of_lt (by decide)
  have hnorm1 : s.cfg.norm 1 = 1 := s.cfg.norm_of_lt (by decide)
  obtain ⟨e, he, -⟩ | ⟨pa', hpa, hres, hdraw, hsc⟩ | ⟨pa', -, hfail, hsc⟩ :=
    storeConditional_cases rd (s.rx rs1) n (s.rx rs2) s
  · rw [ha] at he; cases he
  · rw [ha] at hpa; cases hpa
    obtain ⟨c, hwrite, hstored⟩ := State.deviceStored_physWrite ha hm (s.rx rs2)
    rw [hwrite] at hsc
    obtain ⟨t, ht, hwrote⟩ := put_wrote 4 rd 0 { s with resv := none, clint := c }
    have hclint : t.clint = c := hwrote.clint
    refine ⟨t, (exec_of_scOf h).trans (hsc.trans ht), fun _ => ⟨hclint ▸ hstored, ?_⟩, fun hno => ?_⟩
    · rw [hclint, ← hnorm0]; exact hwrote
    · simp [hres, hdraw] at hno
  · obtain ⟨t, ht, hwrote⟩ := put_wrote 4 rd 1 { s with resv := none }
    refine ⟨t, (exec_of_scOf h).trans (hsc.trans ht), fun ⟨hres, hdraw⟩ => ?_, fun _ => ?_⟩
    · simp [hres, hdraw] at hfail
    · rw [← hnorm1]; exact hwrote

theorem store_device {m : MemOp} (h : s.StoresValue i m v) (ha : s.alignedAddr .store m.va m.bytes = .ok pa)
    (hm : ¬ s.inMain pa m.bytes) :
    ∃ t, exec i s = .next t ∧ t.pc = s.nextPc m.len ∧ t.csr.minstret = s.retired ∧
      s.DeviceStored t.clint pa m.bytes v ∧
      t = { s with pc := t.pc, csr := { s.csr with minstret := t.csr.minstret }, clint := t.clint } := by
  obtain ⟨c, hwrite, hstored⟩ := State.deviceStored_physWrite ha hm v
  have hexec := exec_of_write h ((State.write_of_alignedAddr ha v).trans (congrArg _ hwrite))
  refine ⟨_, hexec, State.after_eq _ _, State.count_minstret _, ?_, ?_⟩
  · exact (State.count_clint _).symm ▸ hstored
  · rw [State.ext_count]

end

/-! ### The registers of the CLINT -/

section

variable {c : Config} {off n : Nat} {p : Part}

theorem clintReg_four (h : off % 4 = 0) :
    clintReg c off 4 =
      if off < 4 * c.harts then some (.msip (off / 4)) else clintReg64 c off (if off % 8 = 0 then .lo else .hi) :=
  if_pos ⟨rfl, h⟩

theorem clintReg_eight (hx : c.xlen = .rv64) (h : off % 8 = 0) : clintReg c off 8 = clintReg64 c off .both := by
  simp [clintReg, hx, h]

theorem clintReg_eight_rv32 (hx : c.xlen = .rv32) : clintReg c off 8 = none := by simp [clintReg, hx]

theorem clintReg64_mtimecmp (h : 0x4000 ≤ off ∧ off < 0x4000 + 8 * c.harts) :
    clintReg64 c off p = some (.mtimecmp ((off - 0x4000) / 8) p) := if_pos h

theorem clintReg64_mtime (hc : c.harts ≤ Config.maxHarts) (h : 0xBFF8 ≤ off ∧ off < 0xC000) :
    clintReg64 c off p = some (.mtime p) := by
  have hc : c.harts ≤ 4095 := hc
  rw [clintReg64, if_neg (by omega), if_pos h]

theorem clintReg64_none (hc : c.harts ≤ Config.maxHarts)
    (h : off < 0x4000 ∨ 0x4000 + 8 * c.harts ≤ off ∧ off < 0xBFF8 ∨ 0xC000 ≤ off) : clintReg64 c off p = none := by
  have hc : c.harts ≤ 4095 := hc
  rw [clintReg64, if_neg (by omega), if_neg (by omega)]

/-- An access of another width, or one that is not aligned, names no register (60_exceptions.md R770). -/
theorem clintReg_none_of_access (h : n ≠ 4 ∧ n ≠ 8 ∨ off % n ≠ 0) : clintReg c off n = none := by
  rw [clintReg, if_neg, if_neg]
  · rintro ⟨rfl, h8, -⟩; omega
  · rintro ⟨rfl, h4⟩; omega

/-- `msip` is read and written by 4 bytes alone (60_exceptions.md R770). -/
theorem clintReg_eight_msip (hc : c.harts ≤ Config.maxHarts) (h : off < 4 * c.harts) : clintReg c off 8 = none := by
  have hle : c.harts ≤ 4095 := hc
  cases hx : c.xlen with
  | rv32 => exact clintReg_eight_rv32 hx
  | rv64 =>
    by_cases ha : off % 8 = 0
    · rw [clintReg_eight hx ha, clintReg64_none hc (by omega)]
    · exact clintReg_none_of_access (.inr ha)

/-- An access to a vacant offset names no register (60_exceptions.md R770). -/
theorem clintReg_none_of_vacant (hc : c.harts ≤ Config.maxHarts)
    (h : 4 * c.harts ≤ off ∧ off < 0x4000 ∨ 0x4000 + 8 * c.harts ≤ off ∧ off < 0xBFF8 ∨ 0xC000 ≤ off) :
    clintReg c off n = none := by
  have hle : c.harts ≤ 4095 := hc
  unfold clintReg
  split
  · rw [if_neg (by omega)]; exact clintReg64_none hc (by omega)
  · split
    · exact clintReg64_none hc (by omega)
    · rfl

/-- The registers of a hart (60_exceptions.md R770). -/
theorem clintReg_of_hart {h : Nat} (hc : c.harts ≤ Config.maxHarts) (hh : h < c.harts) :
    clintReg c (4 * h) 4 = some (.msip h) ∧
      clintReg c (0x4000 + 8 * h) 4 = some (.mtimecmp h .lo) ∧
      clintReg c (0x4000 + 8 * h + 4) 4 = some (.mtimecmp h .hi) ∧
      (c.xlen = .rv64 → clintReg c (0x4000 + 8 * h) 8 = some (.mtimecmp h .both)) := by
  have hle : c.harts ≤ 4095 := hc
  refine ⟨?_, ?_, ?_, fun hx => ?_⟩
  · rw [clintReg_four (by omega), if_pos (by omega), show 4 * h / 4 = h by omega]
  · rw [clintReg_four (by omega), if_neg (by omega), if_pos (by omega), clintReg64_mtimecmp (by omega),
      show (0x4000 + 8 * h - 0x4000) / 8 = h by omega]
  · rw [clintReg_four (by omega), if_neg (by omega), if_neg (by omega), clintReg64_mtimecmp (by omega),
      show (0x4000 + 8 * h + 4 - 0x4000) / 8 = h by omega]
  · rw [clintReg_eight hx (by omega), clintReg64_mtimecmp (by omega),
      show (0x4000 + 8 * h - 0x4000) / 8 = h by omega]

/-- `mtime` and its halves (60_exceptions.md R770). -/
theorem clintReg_of_mtime (hc : c.harts ≤ Config.maxHarts) :
    clintReg c 0xBFF8 4 = some (.mtime .lo) ∧ clintReg c 0xBFFC 4 = some (.mtime .hi) ∧
      (c.xlen = .rv64 → clintReg c 0xBFF8 8 = some (.mtime .both)) := by
  have hle : c.harts ≤ 4095 := hc
  refine ⟨?_, ?_, fun hx => ?_⟩
  · rw [clintReg_four (by decide), if_neg (by omega), if_pos (by decide), clintReg64_mtime hc (by decide)]
  · rw [clintReg_four (by decide), if_neg (by omega), if_neg (by decide), clintReg64_mtime hc (by decide)]
  · rw [clintReg_eight hx (by decide), clintReg64_mtime hc (by decide)]

theorem partGet_partSet (w v : Word) (p : Part) :
    partGet (partSet w v p) p = partGet v (if p = .both then .both else .lo) := by
  cases p with
  | both => rfl
  | lo =>
    apply BitVec.eq_of_toNat_eq
    simp only [partGet_lo_toNat, partSet_lo_toNat, reduceCtorEq, if_false]
    omega
  | hi =>
    apply BitVec.eq_of_toNat_eq
    simp only [partGet_lo_toNat, partGet_hi_toNat, partSet_hi_toNat, reduceCtorEq, if_false]
    omega

/-- A 64-bit register is its two halves (60_exceptions.md R770). -/
theorem partGet_both_eq (w : Word) :
    partGet w .both = BitVec.ofNat 64 ((partGet w .lo).toNat + 2 ^ 32 * (partGet w .hi).toNat) := by
  apply BitVec.eq_of_toNat_eq
  rw [partGet_lo_toNat, partGet_hi_toNat, BitVec.toNat_ofNat, Nat.mod_add_div, Nat.mod_eq_of_lt w.isLt]
  rfl

end

section

variable (c : Clint) (v : Word) {h h' : Nat} (p p' : Part)

/-- A register of the CLINT reads what was written to it: all of it, or the half the access names. -/
theorem Clint.get_put_self (hcmp : h < c.mtimecmp.length) (hsip : h < c.msip.length) :
    (c.put v (.mtime p)).get (.mtime p) = partGet v (if p = .both then .both else .lo) ∧
      (c.put v (.mtimecmp h p)).get (.mtimecmp h p) = partGet v (if p = .both then .both else .lo) ∧
      (c.put v (.msip h)).get (.msip h) = v &&& 1 := by
  refine ⟨partGet_partSet .., ?_, ?_⟩
  · simp [Clint.get, Clint.put, hcmp, partGet_partSet]
  · have hbit : v &&& 1 = if v.getLsbD 0 then 1 else 0 := BitVec.and_one_eq_setWidth_ofBool_getLsbD.trans (by
      cases v.getLsbD 0 <;> rfl)
    simpa [Clint.get, Clint.put, hsip] using hbit.symm

/-- A write of one half of a 64-bit register keeps the other, and the halves make up the register. -/
theorem Clint.get_put_half (hcmp : h < c.mtimecmp.length) {r : Part → ClintReg}
    (hr : r ∈ [ClintReg.mtime, .mtimecmp h]) :
    (c.put v (r .lo)).get (r .hi) = c.get (r .hi) ∧ (c.put v (r .hi)).get (r .lo) = c.get (r .lo) ∧
      c.get (r .both) = BitVec.ofNat 64 ((c.get (r .lo)).toNat + 2 ^ 32 * (c.get (r .hi)).toNat) := by
  obtain rfl | rfl : r = ClintReg.mtime ∨ r = .mtimecmp h := by simpa using hr
  · exact ⟨partGet_hi_partSet_lo .., partGet_lo_partSet_hi .., partGet_both_eq _⟩
  · refine ⟨?_, ?_, partGet_both_eq _⟩
    · simp [Clint.get, Clint.put, hcmp, partGet_hi_partSet_lo]
    · simp [Clint.get, Clint.put, hcmp, partGet_lo_partSet_hi]

/-- A write of a register of one hart keeps those of the others. -/
theorem Clint.get_put_other (hne : h' ≠ h) :
    (c.put v (.mtimecmp h p)).get (.mtimecmp h' p') = c.get (.mtimecmp h' p') ∧
      (c.put v (.msip h)).get (.msip h') = c.get (.msip h') := by
  simp [Clint.get, Clint.put, hne.symm]

end

/-- Settles O19: an access that passes its checks outside main memory names a register of the CLINT or a device. -/
theorem deviceAccessesComplete : Obligations.DeviceAccessesComplete := by
  unfold Obligations.DeviceAccessesComplete
  refine ⟨fun s i m pa hm => ⟨fun ha => ⟨fun h => ?_, fun f h on => ?_⟩, fun ha v h => store_device h ha hm⟩,
    ⟨fun s i a pa => amo_device, fun s i rd rs1 n pa => lr_device, fun s i rd rs1 rs2 n pa h ha hm => ?_⟩,
    fun c h hc => ?_, fun c v h h' p p' hcmp hsip => ?_⟩
  · exact ⟨_, State.deviceValue_physRead ha hm (State.Loads.fits (.inl h)).le,
      computes_of_read h (State.read_of_alignedAddr ha)⟩
  · obtain ⟨t, hexec, hloaded⟩ := loadedF_of_read h on (State.read_of_alignedAddr ha)
    exact ⟨_, t, State.deviceValue_physRead ha hm (State.Loads.fits (.inr ⟨f, h, on⟩)).le, hexec, hloaded⟩
  · rw [← State.reserved_iff]; exact sc_device h ha hm
  · obtain ⟨hlo, hhi, hboth⟩ := clintReg_of_mtime hc
    refine ⟨clintReg_of_hart hc, hlo, hhi, hboth, fun hx off => clintReg_eight_rv32 hx,
      fun off => clintReg_eight_msip hc, fun off n hno => ?_⟩
    obtain hw | ha | hvacant := hno
    · exact clintReg_none_of_access (.inl hw)
    · exact clintReg_none_of_access (.inr ha)
    · exact clintReg_none_of_vacant hc hvacant
  · exact ⟨c.get_put_self v p hcmp hsip, fun r hr => c.get_put_half v hcmp hr, fun hne => c.get_put_other v p p' hne,
      rfl, rfl, rfl, rfl, rfl, rfl⟩

end Sys2Proof.Machine
end

section
/-! The fetch reads the parcels of the instruction (20_memory.md R107, R114, R115; 30_encoding.md R150). -/

namespace Sys2Proof.Machine

open Sys2Proof

section

variable {s : State} {va : Word} {pa : Nat} {lo hi : BitVec 16}

/-- The parcel a fetch reads at a physical address. -/
def State.parcelAt (s : State) (va : Word) (pa : Nat) : BitVec 16 := (s.physRead .fetch va none pa 2).setWidth 16

theorem State.setWidth_parcelAt (s : State) (va : Word) (pa : Nat) :
    (s.parcelAt va pa).setWidth 64 = s.physRead .fetch va none pa 2 := by
  have hlt : (s.physRead .fetch va none pa 2).toNat < 2 ^ 16 := s.physRead_lt .fetch va none pa 2
  apply BitVec.eq_of_toNat_eq
  rw [State.parcelAt, BitVec.toNat_setWidth, BitVec.toNat_setWidth, Nat.mod_eq_of_lt hlt, Nat.mod_eq_of_lt (by omega)]

/-- Two bytes of main memory as a parcel (20_memory.md R107). -/
theorem memRead_two (m : List Host.Cell) (a : Nat) : (memRead m a 2).setWidth 16 = memGet m (a + 1) ++ memGet m a := by
  apply BitVec.eq_of_getLsbD_eq
  intro k hk
  rw [BitVec.getLsbD_setWidth, getLsbD_memRead _ _ _ _ (by decide), BitVec.getLsbD_append]
  by_cases h8 : k < 8
  · simp [h8, hk, Nat.div_eq_of_lt h8, Nat.mod_eq_of_lt h8]
  · simp [h8, hk, show k / 8 = 1 by omega, show k % 8 = k - 8 by omega]

/-- Values of `n` bytes with the same bytes are the same. -/
theorem eq_of_bytes {v w : Word} {n : Nat} (hv : v.toNat < 2 ^ (8 * n)) (hw : w.toNat < 2 ^ (8 * n))
    (h : ∀ j < n, v.extractLsb' (8 * j) 8 = w.extractLsb' (8 * j) 8) : v = w := by
  apply BitVec.eq_of_getLsbD_eq
  intro k _
  by_cases hk : k < 8 * n
  · have hbyte := congrArg (fun b => b.getLsbD (k % 8)) (h (k / 8) (by omega))
    simpa [BitVec.getLsbD_extractLsb', Nat.mod_lt k, show 8 * (k / 8) + k % 8 = k by omega] using hbyte
  · have hzero : ∀ {u : Word}, u.toNat < 2 ^ (8 * n) → u.getLsbD k = false := fun hu =>
      Nat.testBit_lt_two_pow (hu.trans_le (Nat.pow_le_pow_right (by decide) (by omega)))
    rw [hzero hv, hzero hw]

/-- A read outside main memory has one value (20_memory.md R114). -/
theorem State.DeviceValue.unique {k : Access} {n : Nat} {v w : Word} (hv : s.DeviceValue k va pa n v)
    (hw : s.DeviceValue k va pa n w) : v = w := by
  unfold State.DeviceValue at hv hw
  split at hv
  next hc =>
    rw [if_pos hc] at hw
    obtain ⟨r, hr, rfl⟩ := hv
    obtain ⟨r', hr', rfl⟩ := hw
    rw [hr] at hr'; cases hr'; rfl
  next hc =>
    rw [if_neg hc] at hw
    obtain ⟨hvlt, hvb⟩ := hv
    obtain ⟨hwlt, hwb⟩ := hw
    exact eq_of_bytes hvlt hwlt fun j hj => (hvb j hj).trans (hwb j hj).symm

/-- A fetch that passes its checks gives the parcel it reads, and no other. -/
theorem State.parcel_iff (ha : s.alignedAddr .fetch va 2 = .ok pa) (w : BitVec 16) :
    s.Parcel va w ↔ w = s.parcelAt va pa := by
  have hdev := fun hm => State.deviceValue_physRead (n := 2) ha hm (by decide)
  rw [← State.setWidth_parcelAt] at hdev
  constructor
  · rintro ⟨pa', ha', hmain, hio⟩
    rw [ha] at ha'; cases ha'
    by_cases hm : s.inMain pa 2
    · rw [hmain hm, State.parcelAt, State.physRead_main hm, memRead_two]
    · have hw := congrArg (BitVec.setWidth 16) ((hio hm).unique (hdev hm))
      simpa using hw
  · rintro rfl
    refine ⟨pa, ha, fun hm => ?_, hdev⟩
    rw [State.parcelAt, State.physRead_main hm, memRead_two]

/-- The fetch reads the parcel there is. -/
theorem State.Parcel.read {w : BitVec 16} (h : s.Parcel va w) : s.read .fetch va 2 = .ok (w.setWidth 64) := by
  obtain ⟨pa, ha, -⟩ := id h
  rw [State.read_of_alignedAddr ha, ← State.setWidth_parcelAt, ← (State.parcel_iff ha w).1 h]

theorem setWidth_setWidth_parcel (w : BitVec 16) : (w.setWidth 64).setWidth 16 = w := by simp

/-! ### What the first parcel says -/

theorem State.fetch_half (hlo : s.Parcel s.pc lo) (hk : lo.extractLsb' 0 2 ≠ 3#2) : s.fetch = .ok (.half lo) := by
  have hkind : parcelKind lo = .half := if_pos hk
  simp only [State.fetch, hlo.read, setWidth_setWidth_parcel, hkind]

theorem parcelKind_of_low_bits (hk : lo.extractLsb' 0 2 = 3#2) :
    parcelKind lo = if lo.extractLsb' 2 3 = 7#3 then .long else .word := by
  simp [parcelKind, hk]

/-- A fault on the second parcel comes before an encoding longer than 32 bits is refused (20_memory.md R115). -/
theorem State.fetch_second_error {x : Exc × Word} (hlo : s.Parcel s.pc lo) (hk : lo.extractLsb' 0 2 = 3#2)
    (h : s.read .fetch (s.nextPc 2) 2 = .error x) : s.fetch = .error x := by
  rw [← State.after_eq] at h
  by_cases hlong : lo.extractLsb' 2 3 = 7#3 <;>
    simp only [State.fetch, hlo.read, setWidth_setWidth_parcel, parcelKind_of_low_bits hk, hlong, if_true, if_false, h]

theorem State.fetch_second_ok (hlo : s.Parcel s.pc lo) (hk : lo.extractLsb' 0 2 = 3#2) (hhi : s.Parcel (s.nextPc 2) hi) :
    s.fetch =
      if lo.extractLsb' 2 3 = 7#3 then .error (.illegalInstruction, lo.setWidth 64) else .ok (.word (hi ++ lo)) := by
  have hread := hhi.read
  have hzext : zext16 (lo.setWidth 64) = lo.setWidth 64 := congrArg _ (setWidth_setWidth_parcel lo)
  rw [← State.after_eq] at hread
  by_cases hlong : lo.extractLsb' 2 3 = 7#3 <;>
    simp only [State.fetch, hlo.read, setWidth_setWidth_parcel, parcelKind_of_low_bits hk, hlong, if_true, if_false, hread,
      hzext]

/-- Settles O44: the first parcel says whether there is a second. -/
theorem fetchReadsTheBytesAtPc : Obligations.FetchReadsTheBytesAtPc := by
  unfold Obligations.FetchReadsTheBytesAtPc
  refine ⟨fun s va pa ha => ⟨_, (State.parcel_iff ha _).2 rfl⟩, fun s lo hlo => ⟨State.fetch_half hlo, fun hk =>
    ⟨fun hi hhi => State.fetch_second_ok hlo hk hhi, fun e he => State.fetch_second_error hlo hk ?_⟩⟩⟩
  rw [State.read_aligned (State.split_of_kind rfl _ _), he]

end

end Sys2Proof.Machine
end

section
/-! Misaligned accesses that are performed byte by byte (20_memory.md R111; logs 10 and 18). -/

namespace Sys2Proof.Machine

open Sys2Proof

section

variable {s u : State} {i : Instr} {k : Access} {va v : Word} {n : Nat} {e : Exc} {order : List Nat}

/-! ### The order of the bytes -/

/-- Every order in which the bytes may be accessed has each byte once (20_memory.md R111). -/
theorem permute_perm (l : List Nat) (q : Nat) : (permute l.length l q).Perm l := by
  generalize hn : l.length = n
  induction n generalizing l q with
  | zero => rw [List.length_eq_zero_iff.1 hn]; exact .refl _
  | succ n ih =>
    have hi : q % l.length < l.length := Nat.mod_lt _ (by omega)
    rw [permute, List.getElem?_eq_getElem hi, Option.getD_some]
    exact ((ih _ _ (by rw [List.length_eraseIdx_of_lt hi]; omega)).cons _).trans (List.getElem_cons_eraseIdx_perm hi)

theorem State.splitOrder_perm (s : State) (va : Word) (n : Nat) : (s.splitOrder va n).Perm (List.range n) := by
  have h := permute_perm (List.range n) (Config.byteOrder s.draws va)
  rwa [List.length_range] at h

theorem State.mem_splitOrder {j : Nat} : j ∈ s.splitOrder va n ↔ j < n := by
  rw [(s.splitOrder_perm va n).mem_iff, List.mem_range]

/-! ### The bytes of an access -/

theorem State.byteAddr_zero (s : State) (h : s.cfg.norm va = va) : s.byteAddr va 0 = va := by
  simpa [State.byteAddr] using h

/-- The bytes of an access of at most 8 have addresses of their own. -/
theorem State.byteAddr_inj (s : State) {j l : Nat} (hj : j < 8) (hl : l < 8)
    (h : (s.byteAddr va j).toNat = (s.byteAddr va l).toNat) : j = l := by
  simp only [State.byteAddr, Config.norm_toNat, BitVec.toNat_add, BitVec.toNat_ofNat] at h
  cases hx : s.cfg.xlen <;> rw [hx] at h <;> simp only [Xlen.bits] at h <;> omega

/-- A byte a misaligned access may reach is one of main memory (20_memory.md R111). -/
theorem State.splitAddr_ok {a : Word} {pa : Nat} (h : s.splitAddr k a = .ok pa) :
    s.translate k a = .ok pa ∧ splitOk s.cfg pa = true ∧ s.inMain pa 1 := by
  unfold State.splitAddr at h
  obtain ⟨e, -, hp⟩ | ⟨pa', -, -, hp⟩ | ⟨pa', ht, hr, hp⟩ := s.physAddr_cases k a 1
  · rw [hp] at h; cases h
  · rw [hp] at h; cases h
  rw [hp] at h
  by_cases hs : splitOk s.cfg pa' = true
  case neg => simp [hs] at h
  obtain rfl : pa' = pa := by simpa [hs] using h
  obtain ⟨r, hfind, -, hclint⟩ := regionOk_iff.1 hr
  refine ⟨ht, hs, ?_, hclint.resolve_right ?_⟩
  · simp only [splitOk, hfind, Bool.and_eq_true] at hs
    simp only [isMain, hfind, hs.1]
  · rintro ⟨reg, hreg⟩
    have := width_of_clintReg hreg
    omega

theorem State.splitAddr_error_cases {a : Word} (h : s.splitAddr k a = .error e) :
    s.translate k a = .error e ∨ e = accessFaultOf k := by
  unfold State.splitAddr at h
  obtain ⟨e', ht, hp⟩ | ⟨pa, -, -, hp⟩ | ⟨pa, -, -, hp⟩ := s.physAddr_cases k a 1 <;> rw [hp] at h
  · cases h; exact .inl ht
  · cases h; exact .inr rfl
  · by_cases hs : splitOk s.cfg pa = true
    · simp [hs] at h
    · simp only [hs, Bool.false_eq_true, if_false] at h; cases h
      exact .inr (accessExc_eq k)

theorem State.splitAddr_error {a : Word} (h : s.splitAddr k a = .error e) : e = accessFaultOf k ∨ e = pageFaultOf k :=
  (State.splitAddr_error_cases h).elim State.translate_error .inl

/-- An access that is not translated fails in a byte with the access fault alone. -/
theorem State.splitAddr_error_of_untranslated {a : Word} (hu : s.untranslated k) (h : s.splitAddr k a = .error e) :
    e = accessFaultOf k := by
  refine (State.splitAddr_error_cases h).resolve_left fun ht => ?_
  rw [State.translate_of_untranslated hu] at ht
  cases ht

/-! ### Whether the access is performed at all -/

theorem State.split_eq_true (hs : s.cfg.misaligned = .support) (ha : va.toNat % n ≠ 0) (hk : splits k = true) :
    s.split k va n = true := by
  simp [State.split, hs, ha, hk]

theorem State.splitRefused_eq_false (h : ∀ pa, s.translate k va = .ok pa → splitOk s.cfg pa = true) :
    s.splitRefused k va = false := by
  unfold State.splitRefused
  split
  · rfl
  · rename_i pa ht; rw [h pa ht]; rfl

/-- The region of a misaligned access is that of its first byte (log 18). -/
theorem State.splitRefused_of_noSplit {pa : Nat} (ht : s.translate k va = .ok pa) (h : s.noSplit pa) :
    s.splitRefused k va = true := by
  have hsplit : splitOk s.cfg pa = false := by
    unfold splitOk
    split
    · rfl
    · rename_i r hr
      obtain ⟨hmem, hbase, hend⟩ := findRegion_some hr
      obtain hio | hno := h r hmem hbase hend
      · rw [hio]; rfl
      · rw [hno, Bool.and_false]
  simp only [State.splitRefused, ht, hsplit, Bool.not_false]

theorem State.splitOk_of_first_byte {pa : Nat} (hn : s.cfg.norm va = va) (h : s.splitAddr k (s.byteAddr va 0) = .ok pa) :
    ∀ pa, s.translate k va = .ok pa → splitOk s.cfg pa = true := by
  rw [s.byteAddr_zero hn] at h
  obtain ⟨ht, hs, -⟩ := State.splitAddr_ok h
  intro pa' ht'
  rw [ht] at ht'; cases ht'
  exact hs

theorem State.read_of_split (hs : s.split k va n = true) (hr : s.splitRefused k va = false) :
    s.read k va n = s.readSplit k va (s.splitOrder va n) 0 := by
  obtain ⟨hr', -⟩ | ⟨-, h⟩ := State.read_split hs
  · rw [hr] at hr'; cases hr'
  · exact h

theorem State.write_of_split (hs : s.split k va n = true) (hr : s.splitRefused k va = false) (v : Word) :
    s.write k va n v = State.writeSplit k va v (s.splitOrder va n) s := by
  obtain ⟨hr', -⟩ | ⟨-, h⟩ := State.write_split hs v
  · rw [hr] at hr'; cases hr'
  · exact h

theorem State.read_of_refused (hs : s.split k va n = true) (hr : s.splitRefused k va = true) :
    s.read k va n = .error (accessFaultOf k, va) := by
  obtain ⟨-, h⟩ | ⟨hr', -⟩ := State.read_split hs
  · rw [h, accessExc_eq]
  · rw [hr] at hr'; cases hr'

theorem State.write_of_refused (hs : s.split k va n = true) (hr : s.splitRefused k va = true) (v : Word) :
    s.write k va n v = .error (accessFaultOf k, va, s) := by
  obtain ⟨-, h⟩ | ⟨hr', -⟩ := State.write_split hs v
  · rw [h, accessExc_eq]
  · rw [hr] at hr'; cases hr'

/-! ### Loads -/

theorem getLsbD_memRead_one (m : List Host.Cell) (a b : Nat) : (memRead m a 1).getLsbD b = (memGet m a).getLsbD b := by
  rw [getLsbD_memRead _ _ _ _ (by decide)]
  by_cases hb : b < 8
  · simp [hb, Nat.div_eq_of_lt hb, Nat.mod_eq_of_lt hb]
  · simp [hb, BitVec.getLsbD_of_ge _ b (by omega : 8 ≤ b)]

/-- Bytes that may all be accessed are read, in any order: each bit is that of its byte. -/
theorem State.readSplit_ok {pa : Nat → Nat} (h : ∀ j ∈ order, s.splitAddr k (s.byteAddr va j) = .ok (pa j))
    (v : Word) :
    ∃ w, s.readSplit k va order v = .ok w ∧
      ∀ b < 64, w.getLsbD b =
        (v.getLsbD b || decide (b / 8 ∈ order) && (memGet s.mem (pa (b / 8))).getLsbD (b % 8)) := by
  induction order generalizing v with
  | nil => exact ⟨v, rfl, by simp⟩
  | cons j order ih =>
    have hj := h j List.mem_cons_self
    obtain ⟨-, -, hm⟩ := State.splitAddr_ok hj
    obtain ⟨w, hw, hbits⟩ := ih (fun l hl => h l (List.mem_cons_of_mem _ hl))
      (v ||| s.physRead k (s.byteAddr va j) none (pa j) 1 <<< (8 * j))
    refine ⟨w, by simp only [State.readSplit, hj, hw], fun b hb => ?_⟩
    rw [hbits b hb, State.physRead_main hm, BitVec.getLsbD_or, BitVec.getLsbD_shiftLeft, getLsbD_memRead_one,
      decide_eq_true hb, Bool.true_and]
    by_cases hbj : b / 8 = j
    · subst hbj
      rw [decide_eq_false (show ¬ b < 8 * (b / 8) by omega), show b - 8 * (b / 8) = b % 8 by omega]
      cases (memGet s.mem (pa (b / 8))).getLsbD (b % 8) <;> simp
    · have hother : (!decide (b < 8 * j) && (memGet s.mem (pa j)).getLsbD (b - 8 * j)) = false := by
        by_cases hlt : b < 8 * j
        · simp [hlt]
        · rw [BitVec.getLsbD_of_ge _ _ (by omega), Bool.and_false]
      rw [hother]
      simp [hbj]

/-- A load with a byte that may not be accessed raises the exception of the first such byte (20_memory.md R112). -/
theorem State.readSplit_fails (h : ∃ j ∈ order, ∃ e, s.splitAddr k (s.byteAddr va j) = .error e) (v : Word) :
    ∃ j ∈ order, ∃ e, s.splitAddr k (s.byteAddr va j) = .error e ∧
      s.readSplit k va order v = .error (e, s.byteAddr va j) := by
  induction order generalizing v with
  | nil => obtain ⟨j, hj, -⟩ := h; cases hj
  | cons j order ih =>
    cases hj : s.splitAddr k (s.byteAddr va j) with
    | error e => exact ⟨j, List.mem_cons_self, e, hj, by simp only [State.readSplit, hj]⟩
    | ok pa =>
      obtain ⟨l, hl, e, he⟩ := h
      obtain rfl | hl := List.mem_cons.1 hl
      · rw [hj] at he; cases he
      obtain ⟨l', hl', e', he', hread⟩ :=
        ih ⟨l, hl, e, he⟩ (v ||| s.physRead k (s.byteAddr va j) none pa 1 <<< (8 * j))
      exact ⟨l', List.mem_cons_of_mem _ hl', e', he', by simp only [State.readSplit, hj, hread]⟩

/-- A misaligned load whose bytes may all be accessed gets them (20_memory.md R111). -/
theorem State.read_split_ok {pa : Nat → Nat} (hs : s.split k va n = true) (hva : s.cfg.norm va = va) (hpos : 0 < n)
    (hn : n ≤ 8) (h : ∀ j < n, s.splitAddr k (s.byteAddr va j) = .ok (pa j)) :
    ∃ w, s.read k va n = .ok w ∧ w.toNat = gatherNat s.mem pa n := by
  rw [State.read_of_split hs (State.splitRefused_eq_false (State.splitOk_of_first_byte hva (h 0 hpos)))]
  obtain ⟨w, hw, hbits⟩ := State.readSplit_ok (fun j hj => h j (State.mem_splitOrder.1 hj)) 0#64
  refine ⟨w, hw, toNat_eq_of_testBit fun b => ?_⟩
  rw [testBit_gatherNat]
  by_cases hb : b < 64
  · rw [hbits b hb, BitVec.getLsbD_zero, Bool.false_or,
      decide_eq_decide.2 (show b / 8 ∈ s.splitOrder va n ↔ b < 8 * n by rw [State.mem_splitOrder]; omega)]
  · rw [BitVec.getLsbD_of_ge _ _ (by omega), decide_eq_false (by omega), Bool.false_and]

/-! ### Stores -/

/-- A store of a byte that may be accessed changes that byte and nothing else. -/
theorem State.physWrite_byte {pa : Nat} (hm : u.inMain pa 1) (w : Word) :
    ∃ mem, u.physWrite pa 1 ((w.setWidth 8).setWidth 64) = { u with mem := mem } ∧
      StoredBytes u { u with mem := mem } pa 1 w := by
  refine ⟨_, State.physWrite_main hm _, fun a => (memGet_memWrite ..).trans ?_⟩
  by_cases ha : pa ≤ a ∧ a < pa + 1
  · rw [if_pos ha, if_pos ha, show a - pa = 0 by omega, extractLsb'_zero_byte, extractLsb'_zero_byte]
    simp
  · rw [if_neg ha, if_neg ha]

/-- Memory after the store of byte `l` of a value. -/
theorem StoredBytes.byte {t : State} {pa l : Nat} (h : StoredBytes s t pa 1 (v >>> (8 * l))) (a : Nat) :
    memGet t.mem a = if a = pa then v.extractLsb' (8 * l) 8 else memGet s.mem a := by
  rw [h a]
  by_cases ha : a = pa
  · subst ha
    rw [if_pos (by omega), if_pos rfl, Nat.sub_self]
    apply BitVec.eq_of_getLsbD_eq
    intro b hb
    simp [hb]
  · rw [if_neg (by omega), if_neg ha]

/-- The byte stores of a list of bytes, each checked in the state the one before left: the states between them, and
whether the store completes or a byte fails. -/
theorem writeSplit_chain (k : Access) (va v : Word) (order : List Nat) (u : State) :
    ∃ (c : Nat → State) (d : Nat), c 0 = u ∧ d ≤ order.length ∧
      (∀ j < d, ∃ l pa, order[j]? = some l ∧ (c j).splitAddr k (u.byteAddr va l) = .ok pa ∧
        c (j + 1) = { c j with mem := (c (j + 1)).mem } ∧ StoredBytes (c j) (c (j + 1)) pa 1 (v >>> (8 * l))) ∧
      (d = order.length ∧ State.writeSplit k va v order u = .ok (c d) ∨
        ∃ l e, order[d]? = some l ∧ (c d).splitAddr k (u.byteAddr va l) = .error e ∧
          State.writeSplit k va v order u = .error (e, u.byteAddr va l, c d)) := by
  induction order generalizing u with
  | nil => exact ⟨fun _ => u, 0, rfl, le_rfl, fun _ h => absurd h (Nat.not_lt_zero _), .inl ⟨rfl, rfl⟩⟩
  | cons i order ih =>
    cases hi : u.splitAddr k (u.byteAddr va i) with
    | error e =>
      exact ⟨fun _ => u, 0, rfl, Nat.zero_le _, fun _ h => absurd h (Nat.not_lt_zero _),
        .inr ⟨i, e, rfl, hi, by simp only [State.writeSplit, hi]⟩⟩
    | ok pa =>
      obtain ⟨-, -, hm⟩ := State.splitAddr_ok hi
      obtain ⟨mem, hwrite, hstored⟩ := State.physWrite_byte hm (v >>> (8 * i))
      have hsplit : State.writeSplit k va v (i :: order) u = State.writeSplit k va v order { u with mem := mem } := by
        simp only [State.writeSplit, hi, hwrite]
      obtain ⟨c, d, h0, hd, hsteps, hend⟩ := ih { u with mem := mem }
      refine ⟨fun | 0 => u | j + 1 => c j, d + 1, rfl, Nat.succ_le_succ hd, fun j hj => ?_, ?_⟩
      · cases j with
        | zero => exact ⟨i, pa, rfl, hi, by simp only [h0], by simpa only [h0] using hstored⟩
        | succ j => exact hsteps j (Nat.lt_of_succ_lt_succ hj)
      · rw [hsplit]
        obtain ⟨rfl, hok⟩ | ⟨l, e, hl, he, herr⟩ := hend
        · exact .inl ⟨rfl, hok⟩
        · exact .inr ⟨l, e, hl, he, herr⟩

/-- A misaligned store to a region that performs it goes byte by byte, in some order (20_memory.md R111). -/
theorem State.write_split_chain (hs : s.split k va n = true) (hr : s.splitRefused k va = false) (v : Word) :
    ∃ (order : List Nat) (c : Nat → State) (d : Nat), SplitStoresTo s k va n v order c d ∧
      (d = n ∧ s.write k va n v = .ok (c d) ∨
        ∃ e tval, d < n ∧ SplitStoreFails s k va order c d e tval ∧ s.write k va n v = .error (e, tval, c d)) := by
  have hperm := s.splitOrder_perm va n
  have hlen : (s.splitOrder va n).length = n := by rw [hperm.length_eq, List.length_range]
  obtain ⟨c, d, h0, hd, hsteps, hend⟩ := writeSplit_chain k va v (s.splitOrder va n) s
  rw [← State.write_of_split hs hr, hlen] at hend
  refine ⟨s.splitOrder va n, c, d, ⟨h0, hperm, hlen ▸ hd, hsteps⟩, hend.imp_right ?_⟩
  rintro ⟨l, e, hl, he, herr⟩
  have hlt : d < n := hlen ▸ (List.getElem?_eq_some_iff.1 hl).1
  exact ⟨e, _, hlt, ⟨l, hl, rfl, he, State.splitAddr_error he⟩, herr⟩

section

variable {c : Nat → State} {d : Nat}

theorem SplitStoresTo.start (h : SplitStoresTo s k va n v order c d) : c 0 = s := h.1

theorem SplitStoresTo.perm (h : SplitStoresTo s k va n v order c d) : order.Perm (List.range n) := h.2.1

theorem SplitStoresTo.mem_order (h : SplitStoresTo s k va n v order c d) {l : Nat} : l ∈ order ↔ l < n := by
  rw [h.perm.mem_iff, List.mem_range]

theorem SplitStoresTo.take_all (h : SplitStoresTo s k va n v order c d) : order.take n = order :=
  List.take_of_length_le (by rw [h.perm.length_eq, List.length_range])

/-- A byte of the order is not among those before it. -/
theorem SplitStoresTo.notMem_take (h : SplitStoresTo s k va n v order c d) {j l : Nat} (hl : order[j]? = some l) :
    l ∉ order.take j := by
  intro hmem
  obtain ⟨hj, rfl⟩ := List.getElem?_eq_some_iff.1 hl
  obtain ⟨j', hj', he⟩ := List.mem_take_iff_getElem.1 hmem
  have hnodup : order.Nodup := h.perm.nodup_iff.2 List.nodup_range
  have := hnodup.getElem_inj_iff.1 he
  omega

theorem SplitStoresTo.step (h : SplitStoresTo s k va n v order c d) {j : Nat} (hj : j < d) :
    ∃ l pa, order[j]? = some l ∧ (c j).splitAddr k (s.byteAddr va l) = .ok pa ∧
      c (j + 1) = { c j with mem := (c (j + 1)).mem } ∧ StoredBytes (c j) (c (j + 1)) pa 1 (v >>> (8 * l)) := by
  obtain ⟨-, -, -, hsteps⟩ := h
  exact hsteps j hj

/-- The byte stores change main memory alone. -/
theorem SplitStoresTo.frame (h : SplitStoresTo s k va n v order c d) {j : Nat} (hj : j ≤ d) :
    c j = { s with mem := (c j).mem } := by
  induction j with
  | zero => rw [h.start]
  | succ j ih =>
    obtain ⟨l, pa, -, -, hc, -⟩ := h.step hj
    rw [hc, ih (by omega)]

/-- Where the access is not translated, how a byte is checked does not depend on memory. -/
theorem SplitStoresTo.splitAddr_eq (h : SplitStoresTo s k va n v order c d) (hu : s.untranslated k) {j : Nat} (hj : j ≤ d)
    (a : Word) : (c j).splitAddr k a = s.splitAddr k a := by
  have hu' : (c j).untranslated k := by rw [h.frame hj]; exact hu
  have hcfg : (c j).cfg = s.cfg := by rw [h.frame hj]
  simp only [State.splitAddr, State.physAddr, State.translate_of_untranslated hu', State.translate_of_untranslated hu, hcfg]

/-- What an untranslated store has written after some of its bytes: those bytes are the value's, and every other byte of
memory is as before. -/
theorem SplitStoresTo.memory (h : SplitStoresTo s k va n v order c d) (hu : s.untranslated k) (hn : n ≤ 8) {j : Nat}
    (hj : j ≤ d) :
    (∀ l ∈ order.take j, s.splitAddr k (s.byteAddr va l) = .ok (s.byteAddr va l).toNat ∧
      memGet (c j).mem (s.byteAddr va l).toNat = v.extractLsb' (8 * l) 8) ∧
    ∀ a, (∀ l ∈ order.take j, a ≠ (s.byteAddr va l).toNat) → memGet (c j).mem a = memGet s.mem a := by
  induction j with
  | zero => exact ⟨fun l hl => by simp at hl, fun a _ => by rw [h.start]⟩
  | succ j ih =>
    obtain ⟨ihdone, ihrest⟩ := ih (by omega)
    have hlt : ∀ l ∈ order, l < 8 := fun l hl => (h.mem_order.1 hl).trans_le hn
    obtain ⟨l, pa, hl, haddr, -, hstored⟩ := h.step hj
    rw [h.splitAddr_eq hu (by omega)] at haddr
    obtain rfl : pa = (s.byteAddr va l).toNat := by
      have ht := (State.splitAddr_ok haddr).1
      rw [State.translate_of_untranslated hu] at ht
      exact (Except.ok.inj ht).symm
    rw [List.take_add_one, hl, Option.toList_some]
    refine ⟨fun l' hl' => ?_, fun a ha => ?_⟩
    · by_cases he : (s.byteAddr va l').toNat = (s.byteAddr va l).toNat
      · have hl'8 : l' < 8 := hlt l' ((List.mem_append.1 hl').elim List.mem_of_mem_take fun hm =>
          List.mem_singleton.1 hm ▸ List.mem_of_getElem? hl)
        obtain rfl := s.byteAddr_inj hl'8 (hlt l (List.mem_of_getElem? hl)) he
        exact ⟨haddr, by rw [hstored.byte, if_pos rfl]⟩
      · have hmem : l' ∈ order.take j := (List.mem_append.1 hl').resolve_right fun hm =>
          he (by rw [List.mem_singleton.1 hm])
        obtain ⟨haddr', hget⟩ := ihdone l' hmem
        exact ⟨haddr', by rw [hstored.byte, if_neg he, hget]⟩
    · rw [hstored.byte, if_neg (ha l (by simp)), ihrest a fun l' hl' => ha l' (List.mem_append_left _ hl')]

/-- An untranslated store completes where every byte may be accessed. -/
theorem SplitStoresTo.stored {pa : Nat} (h : SplitStoresTo s k va n v order c n) (hu : s.untranslated k) (hn : n ≤ 8)
    (hpa : ∀ j < n, s.splitAddr k (s.byteAddr va j) = .ok (pa + j)) : StoredBytes s (c n) pa n v := by
  obtain ⟨hdone, hrest⟩ := h.memory hu hn le_rfl
  rw [h.take_all] at hdone hrest
  have haddr : ∀ j < n, (s.byteAddr va j).toNat = pa + j := fun j hj => by
    obtain ⟨hj', -⟩ := hdone j (h.mem_order.2 hj)
    exact Except.ok.inj (hj'.symm.trans (hpa j hj))
  intro a
  by_cases ha : pa ≤ a ∧ a < pa + n
  · obtain ⟨-, hget⟩ := hdone (a - pa) (h.mem_order.2 (by omega))
    rw [haddr _ (by omega), show pa + (a - pa) = a by omega] at hget
    rw [if_pos ha, hget]
  · rw [if_neg ha]
    refine hrest a fun l hl he => ha ?_
    have hl := h.mem_order.1 hl
    rw [he, haddr l hl]
    omega

end

/-! ### The instructions -/

section

variable {m : MemOp}

theorem load_split {pa : Nat → Nat} (hs : s.cfg.misaligned = .support) (ha : m.va.toNat % m.bytes ≠ 0)
    (hpa : ∀ j < m.bytes, s.splitAddr .load (s.byteAddr m.va j) = .ok (pa j)) :
    (s.loadOf i = some m → Computes i s m.len m.reg (s.cfg.word (m.value (gatherNat s.mem pa m.bytes)))) ∧
      ∀ f, s.fpLoadOf i = some (f, m) → s.csr.mstatus.fs ≠ 0 →
        ∃ t, exec i s = .next t ∧ LoadedF s t m.len f m.reg (BitVec.ofNat 64 (gatherNat s.mem pa m.bytes)) := by
  have hread : s.Loads i m → ∃ w, s.read .load m.va m.bytes = .ok w ∧ w.toNat = gatherNat s.mem pa m.bytes := fun h =>
    State.read_split_ok (State.split_eq_true hs ha rfl) h.fits.va h.fits.pos h.fits.le hpa
  refine ⟨fun h => ?_, fun f h on => ?_⟩
  · obtain ⟨w, hw, hval⟩ := hread (.inl h)
    rw [← hval]
    exact computes_of_read h hw
  · obtain ⟨w, hw, hval⟩ := hread (.inr ⟨f, h, on⟩)
    rw [← hval, BitVec.ofNat_toNat, BitVec.setWidth_eq]
    exact loadedF_of_read h on hw

theorem store_split_untranslated {pa : Nat} (h : s.StoresValue i m v) (hs : s.cfg.misaligned = .support)
    (ha : m.va.toNat % m.bytes ≠ 0) (hu : s.untranslated .store) (hb : s.bytesAt .store m.va m.bytes pa) :
    Stores i s m.len pa m.bytes v := by
  have hpa : ∀ j < m.bytes, s.splitAddr .store (s.byteAddr m.va j) = .ok (pa + j) := fun j hj => (hb j hj).1
  obtain ⟨order, c, d, hchain, ⟨rfl, hw⟩ | ⟨e, tval, hd, ⟨l, hl, rfl, he, -⟩, -⟩⟩ :=
    State.write_split_chain (State.split_eq_true hs ha rfl)
      (State.splitRefused_eq_false (State.splitOk_of_first_byte h.fits.va (hpa 0 h.fits.pos))) v
  · have hmem := hchain.stored hu h.fits.le hpa
    rw [hchain.frame le_rfl] at hw hmem
    exact stores_of_write h hw hmem
  · rw [hchain.splitAddr_eq hu le_rfl, hpa l (hchain.mem_order.1 (List.mem_of_getElem? hl))] at he
    cases he

/-- A misaligned access to a region that performs none (20_memory.md R111, 60_exceptions.md R721 (e)). -/
theorem State.Makes.traps_of_noSplit {pa : Nat} (h : s.Makes i k va n) (hk : k = .load ∨ k = .store)
    (hs : s.cfg.misaligned = .support) (ha : va.toNat % n ≠ 0) (ht : s.translate k va = .ok pa) (hno : s.noSplit pa) :
    Traps i s (accessFaultOf k) va := by
  have hr := State.splitRefused_of_noSplit ht hno
  cases h with
  | load h => exact traps_of_read h (State.read_of_refused (State.split_eq_true hs ha rfl) hr)
  | store h => exact exec_of_write_error h (State.write_of_refused (State.split_eq_true hs ha rfl) hr _)
  | amo | lr | sc => simp at hk

theorem load_split_fails (h : s.Loads i m) (hs : s.cfg.misaligned = .support) (ha : m.va.toNat % m.bytes ≠ 0)
    (hr : s.splitRefused .load m.va = false)
    (hfail : ∃ j < m.bytes, ∃ e, s.splitAddr .load (s.byteAddr m.va j) = .error e) :
    ∃ j < m.bytes, ∃ e, s.splitAddr .load (s.byteAddr m.va j) = .error e ∧ (e = .loadAccessFault ∨ e = .loadPageFault) ∧
      Traps i s e (s.byteAddr m.va j) := by
  obtain ⟨j, hj, hfail⟩ := hfail
  obtain ⟨l, hl, e, he, hread⟩ := State.readSplit_fails (order := s.splitOrder m.va m.bytes)
    ⟨j, State.mem_splitOrder.2 hj, hfail⟩ 0
  rw [← State.read_of_split (State.split_eq_true hs ha rfl) hr] at hread
  exact ⟨l, State.mem_splitOrder.1 hl, e, he, State.splitAddr_error he, traps_of_read h hread⟩

/-- An untranslated store leaves the bytes before the one that fails written (60_exceptions.md R722). -/
theorem store_split_fails (h : s.StoresValue i m v) (hs : s.cfg.misaligned = .support) (ha : m.va.toNat % m.bytes ≠ 0)
    (hr : s.splitRefused .store m.va = false) (hu : s.untranslated .store)
    (hfail : ∃ j < m.bytes, ∃ e, s.splitAddr .store (s.byteAddr m.va j) = .error e) :
    ∃ (done : List Nat) (j : Nat) (t : State),
      j < m.bytes ∧ j ∉ done ∧ s.splitAddr .store (s.byteAddr m.va j) = .error .storeAmoAccessFault ∧
      exec i s = .next (t.take .storeAmoAccessFault (s.byteAddr m.va j)) ∧ t = { s with mem := t.mem } ∧
      (∀ l ∈ done, l < m.bytes ∧ s.splitAddr .store (s.byteAddr m.va l) = .ok (s.byteAddr m.va l).toNat) ∧
      (∀ l ∈ done, memGet t.mem (s.byteAddr m.va l).toNat = v.extractLsb' (8 * l) 8) ∧
      ∀ a, (∀ l ∈ done, a ≠ (s.byteAddr m.va l).toNat) → memGet t.mem a = memGet s.mem a := by
  obtain ⟨order, c, d, hchain, ⟨rfl, -⟩ | ⟨e, tval, hd, ⟨j, hj, rfl, he, -⟩, hw⟩⟩ :=
    State.write_split_chain (State.split_eq_true hs ha rfl) hr v
  · obtain ⟨hdone, -⟩ := hchain.memory hu h.fits.le le_rfl
    obtain ⟨j, hj, e, he⟩ := hfail
    rw [hchain.take_all] at hdone
    obtain ⟨hok, -⟩ := hdone j (hchain.mem_order.2 hj)
    rw [hok] at he; cases he
  · obtain ⟨hdone, hrest⟩ := hchain.memory hu h.fits.le le_rfl
    rw [hchain.splitAddr_eq hu le_rfl] at he
    obtain rfl := State.splitAddr_error_of_untranslated hu he
    exact ⟨order.take d, j, c d, hchain.mem_order.1 (List.mem_of_getElem? hj), hchain.notMem_take hj, he,
      exec_of_write_error h hw, hchain.frame le_rfl,
      fun l hl => ⟨hchain.mem_order.1 (List.mem_of_mem_take hl), (hdone l hl).1⟩, fun l hl => (hdone l hl).2, hrest⟩

/-- The stores of an integer register and those of a floating-point register are different instructions. -/
theorem fpStoreOf_of_storeOf (h : s.storeOf i = some m) : s.fpStoreOf i = none := by
  unfold State.storeOf at h
  split at h <;> cases h <;> rfl

theorem State.StoresValue.eq_of_table (h : s.StoresValue i m v) {m' : MemOp} :
    (s.storeOf i = some m' → v = s.rx m'.reg) ∧ (s.fpStoreOf i = some m' → v = s.rf m'.reg) := by
  obtain ⟨h, rfl⟩ | ⟨h, -, rfl⟩ := h
  · refine ⟨fun h' => ?_, fun h' => ?_⟩
    · rw [h] at h'; cases h'; rfl
    · rw [fpStoreOf_of_storeOf h] at h'; cases h'
  · refine ⟨fun h' => ?_, fun h' => ?_⟩
    · rw [fpStoreOf_of_storeOf h'] at h; cases h
    · rw [h] at h'; cases h'; rfl

theorem store_split_chain (h : s.StoresValue i m v) (hs : s.cfg.misaligned = .support) (ha : m.va.toNat % m.bytes ≠ 0)
    (hr : s.splitRefused .store m.va = false) :
    ∃ (order : List Nat) (c : Nat → State) (d : Nat), SplitStoresTo s .store m.va m.bytes v order c d ∧
      if d = m.bytes then
        ∃ t, exec i s = .next t ∧ t.pc = s.nextPc m.len ∧ t.csr.minstret = s.retired ∧
          t = { c d with pc := t.pc, csr := { s.csr with minstret := t.csr.minstret } }
      else
        ∃ e tval, SplitStoreFails s .store m.va order c d e tval ∧ exec i s = .next ((c d).take e tval) := by
  obtain ⟨order, c, d, hchain, ⟨rfl, hw⟩ | ⟨e, tval, hd, hfails, hw⟩⟩ :=
    State.write_split_chain (State.split_eq_true hs ha rfl) hr v
  · refine ⟨order, c, m.bytes, hchain, ?_⟩
    rw [if_pos rfl]
    refine ⟨_, exec_of_write h hw, ?_, ?_, ?_⟩
    · exact (State.after_eq _ _).trans (by rw [hchain.frame le_rfl]; rfl)
    · exact (State.count_minstret _).trans (by rw [hchain.frame le_rfl]; rfl)
    · rw [hchain.frame le_rfl, State.ext_count]
  · refine ⟨order, c, d, hchain, ?_⟩
    rw [if_neg hd.ne]
    exact ⟨e, tval, hfails, exec_of_write_error h hw⟩

end

end

/-- Settles O22: a load collects the bits of its bytes, a store is a chain of byte stores, and either ends at the first
byte that fails. -/
theorem splitAccessesReachEveryByte : Obligations.SplitAccessesReachEveryByte := by
  unfold Obligations.SplitAccessesReachEveryByte
  refine ⟨fun s i m pa hs ha hb => ?_, fun s i m pa hs ha hpa => load_split hs ha hpa,
    fun s i m pa hs ha hu hb => ⟨fun h => store_split_untranslated (.inl ⟨h, rfl⟩) hs ha hu hb,
      fun h on => store_split_untranslated (.inr ⟨h, on, rfl⟩) hs ha hu hb⟩,
    fun s i k va n h hk on hs ha => ⟨fun pa ht hno => ?_, fun hok hfail => ?_⟩,
    fun s i m v h hs ha hok => store_split_chain h hs ha (State.splitRefused_eq_false hok)⟩
  · have h := load_split (i := i) hs ha fun j hj => (hb j hj).1
    rwa [← leNat_eq_gatherNat] at h
  · exact (State.makes_of_accessOf h on).traps_of_noSplit hk hs ha ht hno
  · have hr := State.splitRefused_eq_false hok
    have hm := State.makes_of_accessOf h on
    refine ⟨?_, ?_⟩
    · rintro rfl
      cases hm with
      | load hm => exact load_split_fails hm hs ha hr hfail
    · rintro rfl hu
      cases hm with
      | store hm =>
        obtain ⟨done, j, t, hj, hnot, he, hexec, ht, hdone, hmem, hrest⟩ := store_split_fails hm hs ha hr hu hfail
        refine ⟨done, j, t, hj, hnot, he, hexec, ht, hdone, fun l hl m' => ?_, hrest⟩
        obtain ⟨hx, hf⟩ := hm.eq_of_table (m' := m')
        exact ⟨fun h => hx h ▸ hmem l hl, fun h => hf h ▸ hmem l hl⟩

end Sys2Proof.Machine
end

section
/-! The instruction formats against the fields the decoder reads (30_encoding.md R151 to R176): a word is a format of some
operands exactly if these are its fields. Where a format scatters an immediate, both sides come down to the same slices of
the word. -/

namespace Sys2Proof

/-! ### Concatenations -/

theorem append_inj_iff {u v : Nat} {x x' : BitVec u} {y y' : BitVec v} : x ++ y = x' ++ y' ↔ x = x' ∧ y = y' := by
  constructor
  · intro h
    have hl := congrArg (BitVec.extractLsb' v u) h
    have hr := congrArg (BitVec.extractLsb' 0 v) h
    rw [BitVec.extractLsb'_append_eq_left, BitVec.extractLsb'_append_eq_left] at hl
    rw [BitVec.extractLsb'_append_eq_right, BitVec.extractLsb'_append_eq_right] at hr
    exact ⟨hl, hr⟩
  · rintro ⟨rfl, rfl⟩; rfl

theorem append_eq_extract_iff {n u v s : Nat} {x : BitVec u} {y : BitVec v} {w : BitVec n} :
    x ++ y = w.extractLsb' s (u + v) ↔ x = w.extractLsb' (s + v) u ∧ y = w.extractLsb' s v := by
  rw [← BitVec.extractLsb'_append_extractLsb'_eq_extractLsb' rfl, append_inj_iff]

theorem append_eq_iff {u v : Nat} {x : BitVec u} {y : BitVec v} {w : BitVec (u + v)} :
    x ++ y = w ↔ x = w.extractLsb' v u ∧ y = w.extractLsb' 0 v := by
  simpa using append_eq_extract_iff (x := x) (y := y) (w := w) (s := 0)

/-! ### 32-bit formats -/

section

variable {f7 op : BitVec 7} {rs2 rs1 rd f5 : BitVec 5} {f3 : BitVec 3} {aq rl : Bool} {w : BitVec 32}

theorem encR_eq_iff : encR f7 rs2 rs1 f3 rd op = w ↔
    f7 = funct7F w ∧ rs2 = rs2F w ∧ rs1 = rs1F w ∧ f3 = funct3F w ∧ rd = rdF w ∧ op = opcodeF w := by
  rw [encR, append_eq_iff]
  simp only [append_eq_extract_iff, and_assoc]
  rfl

theorem encI_eq_iff {imm : BitVec 12} : encI imm rs1 f3 rd op = w ↔
    imm = immIF w ∧ rs1 = rs1F w ∧ f3 = funct3F w ∧ rd = rdF w ∧ op = opcodeF w := by
  rw [encI, append_eq_iff]
  simp only [append_eq_extract_iff, and_assoc]
  rfl

theorem encS_eq_iff {imm : BitVec 12} : encS imm rs2 rs1 f3 op = w ↔
    imm = immSF w ∧ rs2 = rs2F w ∧ rs1 = rs1F w ∧ f3 = funct3F w ∧ op = opcodeF w := by
  rw [encS, immSF, append_eq_iff, eq_comm (a := imm), append_eq_iff (v := 5) (w := imm)]
  repeat rw [append_eq_extract_iff]
  grind [rs2F, rs1F, funct3F, opcodeF]

theorem encB_eq_iff {imm : BitVec 12} : encB imm rs2 rs1 f3 op = w ↔
    imm = immBF w ∧ rs2 = rs2F w ∧ rs1 = rs1F w ∧ f3 = funct3F w ∧ op = opcodeF w := by
  rw [encB, immBF, append_eq_iff, eq_comm (a := imm), append_eq_iff (v := 4) (w := imm)]
  repeat rw [append_eq_extract_iff]
  grind [rs2F, rs1F, funct3F, opcodeF]

theorem encU_eq_iff {imm : BitVec 20} : encU imm rd op = w ↔ imm = immUF w ∧ rd = rdF w ∧ op = opcodeF w := by
  rw [encU, append_eq_iff]
  simp only [append_eq_extract_iff, and_assoc]
  rfl

theorem encJ_eq_iff {imm : BitVec 20} : encJ imm rd op = w ↔ imm = immJF w ∧ rd = rdF w ∧ op = opcodeF w := by
  rw [encJ, immJF, append_eq_iff, eq_comm (a := imm), append_eq_iff (v := 10) (w := imm)]
  repeat rw [append_eq_extract_iff]
  grind [rdF, opcodeF]

theorem ofBool_eq_extract_iff {b : Bool} {s : Nat} : BitVec.ofBool b = w.extractLsb' s 1 ↔ b = w.getLsbD s := by
  rw [BitVec.eq_of_getLsbD_eq_iff]
  simp

theorem encA_eq_iff : encA f5 aq rl rs2 rs1 f3 rd op = w ↔
    f5 = funct5F w ∧ aq = aqF w ∧ rl = rlF w ∧ rs2 = rs2F w ∧ rs1 = rs1F w ∧ f3 = funct3F w ∧ rd = rdF w ∧
      op = opcodeF w := by
  simp only [encA, encR_eq_iff, funct7F]
  repeat rw [append_eq_extract_iff]
  rw [ofBool_eq_extract_iff, ofBool_eq_extract_iff, and_assoc, and_assoc]
  rfl

/-- A 6-bit function code above a shift amount (R162). -/
theorem append_eq_immIF_iff {f6 shamt : BitVec 6} : f6 ++ shamt = immIF w ↔ f6 = funct6F w ∧ shamt = shamtF w :=
  append_eq_extract_iff

/-- The three fields of a fence (R167). -/
theorem fence_eq_immIF_iff {fm pred succ : BitVec 4} :
    fm ++ pred ++ succ = immIF w ↔ fm = fmF w ∧ pred = predF w ∧ succ = succF w := by
  rw [immIF]
  repeat rw [append_eq_extract_iff]
  rw [and_assoc]
  rfl

/-- The third source of an R4 format above the format of its operands (R159). -/
theorem append_eq_funct7F_iff {fmt : BitVec 2} : f5 ++ fmt = funct7F w ↔ f5 = rs3F w ∧ fmt = fmtF w :=
  append_eq_extract_iff

end

/-! ### 16-bit formats -/

section

variable {f3 rs1 r : BitVec 3} {b12 b6 : BitVec 1} {m5 l5 rd : BitVec 5} {f op : BitVec 2} {w : BitVec 16}

theorem encC_eq_iff : encC f3 b12 m5 l5 op = w ↔
    f3 = cFunct3F w ∧ b12 = cBit12F w ∧ m5 = cRdF w ∧ l5 = cRs2F w ∧ op = cOpF w := by
  rw [encC, append_eq_iff]
  simp only [append_eq_extract_iff, and_assoc]
  rfl

theorem encCI_eq_iff {imm : BitVec 6} : encCI f3 imm rd op = w ↔
    f3 = cFunct3F w ∧ imm = cImm6F w ∧ rd = cRdF w ∧ op = cOpF w := by
  rw [encCI, encC_eq_iff, cImm6F, eq_comm (a := imm), append_eq_iff]
  grind [cBit12F, cRs2F]

theorem encCIW_eq_iff {imm : BitVec 8} : encCIW imm r = w ↔
    0b000#3 = cFunct3F w ∧ imm = cImmCIWF w ∧ r = cLoF w ∧ 0b00#2 = cOpF w := by
  rw [encCIW, cImmCIWF, append_eq_iff, eq_comm (a := imm), append_eq_iff (v := 1) (w := imm)]
  repeat rw [append_eq_extract_iff]
  grind [cFunct3F, cLoF, cOpF]

theorem encCL8_eq_iff {uimm : BitVec 5} : encCL8 f3 uimm rs1 r = w ↔
    f3 = cFunct3F w ∧ uimm = cUimm8F w ∧ rs1 = cHiF w ∧ r = cLoF w ∧ 0b00#2 = cOpF w := by
  rw [encCL8, cUimm8F, append_eq_iff, eq_comm (a := uimm), append_eq_iff (v := 3) (w := uimm)]
  repeat rw [append_eq_extract_iff]
  grind [cFunct3F, cHiF, cLoF, cOpF]

theorem encCL4_eq_iff {uimm : BitVec 5} : encCL4 f3 uimm rs1 r = w ↔
    f3 = cFunct3F w ∧ uimm = cUimm4F w ∧ rs1 = cHiF w ∧ r = cLoF w ∧ 0b00#2 = cOpF w := by
  rw [encCL4, cUimm4F, append_eq_iff, eq_comm (a := uimm), append_eq_iff (v := 1) (w := uimm)]
  repeat rw [append_eq_extract_iff]
  grind [cFunct3F, cHiF, cLoF, cOpF]

theorem encC16_eq_iff {imm : BitVec 6} : encC16 imm = w ↔
    0b011#3 = cFunct3F w ∧ imm = cImm16F w ∧ 2#5 = cRdF w ∧ 0b01#2 = cOpF w := by
  rw [encC16, cImm16F, append_eq_iff, eq_comm (a := imm), append_eq_iff (v := 1) (w := imm)]
  repeat rw [append_eq_extract_iff]
  grind [cFunct3F, cRdF, cOpF]

theorem encCSP8_eq_iff {uimm : BitVec 6} : encCSP8 f3 uimm rd = w ↔
    f3 = cFunct3F w ∧ uimm = cUimmSP8F w ∧ rd = cRdF w ∧ 0b10#2 = cOpF w := by
  rw [encCSP8, cUimmSP8F, append_eq_iff, eq_comm (a := uimm), append_eq_iff (v := 2) (w := uimm)]
  repeat rw [append_eq_extract_iff]
  grind [cFunct3F, cRdF, cOpF]

theorem encCSP4_eq_iff {uimm : BitVec 6} : encCSP4 f3 uimm rd = w ↔
    f3 = cFunct3F w ∧ uimm = cUimmSP4F w ∧ rd = cRdF w ∧ 0b10#2 = cOpF w := by
  rw [encCSP4, cUimmSP4F, append_eq_iff, eq_comm (a := uimm), append_eq_iff (v := 3) (w := uimm)]
  repeat rw [append_eq_extract_iff]
  grind [cFunct3F, cRdF, cOpF]

theorem encCSS8_eq_iff {uimm : BitVec 6} : encCSS8 f3 uimm rd = w ↔
    f3 = cFunct3F w ∧ uimm = cUimmSS8F w ∧ rd = cRs2F w ∧ 0b10#2 = cOpF w := by
  rw [encCSS8, cUimmSS8F, append_eq_iff, eq_comm (a := uimm), append_eq_iff (v := 3) (w := uimm)]
  repeat rw [append_eq_extract_iff]
  grind [cFunct3F, cRs2F, cOpF]

theorem encCSS4_eq_iff {uimm : BitVec 6} : encCSS4 f3 uimm rd = w ↔
    f3 = cFunct3F w ∧ uimm = cUimmSS4F w ∧ rd = cRs2F w ∧ 0b10#2 = cOpF w := by
  rw [encCSS4, cUimmSS4F, append_eq_iff, eq_comm (a := uimm), append_eq_iff (v := 4) (w := uimm)]
  repeat rw [append_eq_extract_iff]
  grind [cFunct3F, cRs2F, cOpF]

theorem encCJ_eq_iff {imm : BitVec 11} : encCJ f3 imm = w ↔ f3 = cFunct3F w ∧ imm = cImmJF w ∧ 0b01#2 = cOpF w := by
  rw [encCJ, cImmJF, append_eq_iff, eq_comm (a := imm), append_eq_iff (v := 3) (w := imm)]
  repeat rw [append_eq_extract_iff]
  grind [cFunct3F, cOpF]

theorem encCB_eq_iff {imm : BitVec 8} : encCB f3 imm rs1 = w ↔
    f3 = cFunct3F w ∧ imm = cImmBF w ∧ rs1 = cHiF w ∧ 0b01#2 = cOpF w := by
  rw [encCB, cImmBF, append_eq_iff, eq_comm (a := imm), append_eq_iff (v := 2) (w := imm)]
  repeat rw [append_eq_extract_iff]
  grind [cFunct3F, cHiF, cOpF]

theorem encCLB_eq_iff {uimm : BitVec 2} : encCLB f uimm rs1 r = w ↔
    0b100#3 = cFunct3F w ∧ 0#1 = cBit12F w ∧ f = cBits11F w ∧ uimm = cUimmBF w ∧ rs1 = cHiF w ∧ r = cLoF w ∧
      0b00#2 = cOpF w := by
  rw [encCLB, cUimmBF, append_eq_iff, eq_comm (a := uimm), append_eq_iff (v := 1) (w := uimm)]
  repeat rw [append_eq_extract_iff]
  grind [cFunct3F, cBit12F, cBits11F, cHiF, cLoF, cOpF]

theorem encCLH_eq_iff {uimm : BitVec 1} : encCLH f b6 uimm rs1 r = w ↔
    0b100#3 = cFunct3F w ∧ 0#1 = cBit12F w ∧ f = cBits11F w ∧ rs1 = cHiF w ∧ b6 = cBit6F w ∧ uimm = cUimmHF w ∧
      r = cLoF w ∧ 0b00#2 = cOpF w := by
  rw [encCLH, append_eq_iff]
  simp only [append_eq_extract_iff, and_assoc]
  rfl

theorem encCMPP_eq_iff {f5 : BitVec 5} {rlist : BitVec 4} {spimm : BitVec 2} : encCMPP f5 rlist spimm = w ↔
    0b101#3 = cFunct3F w ∧ f5 = w.extractLsb' 8 5 ∧ rlist = cRlistF w ∧ spimm = cSpimmF w ∧ 0b10#2 = cOpF w := by
  rw [encCMPP, append_eq_iff]
  simp only [append_eq_extract_iff, and_assoc]
  rfl

theorem encCMJT_eq_iff {index : BitVec 8} : encCMJT index = w ↔
    0b101#3 = cFunct3F w ∧ 0b000#3 = cBits12F w ∧ index = cIndexF w ∧ 0b10#2 = cOpF w := by
  rw [encCMJT, append_eq_iff]
  simp only [append_eq_extract_iff, and_assoc]
  rfl

/-- A function code above the field `rd'/rs1'`. -/
theorem append_eq_cRdF_iff : f ++ r = cRdF w ↔ f = cBits11F w ∧ r = cHiF w := append_eq_extract_iff

/-- A function code above the field `rs2'`. -/
theorem append_eq_cRs2F_iff : f ++ r = cRs2F w ↔ f = cBits6F w ∧ r = cLoF w := append_eq_extract_iff

theorem append_eq_cBits12F_iff : b12 ++ f = cBits12F w ↔ b12 = cBit12F w ∧ f = cBits11F w := append_eq_extract_iff

/-- The function code of a push or a pop. -/
theorem append_eq_cmppCode_iff : f3 ++ f = w.extractLsb' 8 5 ↔ f3 = cBits12F w ∧ f = w.extractLsb' 8 2 :=
  append_eq_extract_iff

end

end Sys2Proof
end

section
/-! Encoding what the decoder reads gives the bits back (30_encoding.md R180 to R187, R171 to R176): the instruction of each
row takes its operands from the fields the decoder matched, so its format is the word they were read from. -/

namespace Sys2Proof

/-! ### The 32-bit opcode map -/

section

variable {w : BitVec 32}

/-- The instruction read, if there is one, has the word for its encoding. -/
def Rebuilds (w : BitVec 32) (o : Option Instr) : Prop := ∀ i, o = some i → encode i = .word w

@[simp] theorem rebuilds_none : Rebuilds w none := nofun

@[simp] theorem rebuilds_some_iff {i : Instr} : Rebuilds w (some i) ↔ encode i = .word w := by
  simp [Rebuilds]

theorem parseLoad_rebuilds (hop : opcodeF w = 0b0000011#7) : Rebuilds w (parseLoad w) := by
  unfold parseLoad
  split <;> simp [encode, encI_eq_iff, *]

theorem parseLoadFp_rebuilds (hop : opcodeF w = 0b0000111#7) : Rebuilds w (parseLoadFp w) := by
  unfold parseLoadFp
  split <;> simp [encode, encI_eq_iff, *]

theorem parseMiscMem_rebuilds (hop : opcodeF w = 0b0001111#7) : Rebuilds w (parseMiscMem w) := by
  unfold parseMiscMem
  split <;> simp [encode, encI_eq_iff, fence_eq_immIF_iff, *]

theorem parseOpImm_rebuilds (hop : opcodeF w = 0b0010011#7) : Rebuilds w (parseOpImm w) := by
  unfold parseOpImm
  repeat' split
  all_goals simp [encode, encI_eq_iff, append_eq_immIF_iff, *]

theorem parseOpImm32_rebuilds (hop : opcodeF w = 0b0011011#7) : Rebuilds w (parseOpImm32 w) := by
  unfold parseOpImm32
  repeat' split
  all_goals simp [encode, encI_eq_iff, encR_eq_iff, append_eq_immIF_iff, *]

theorem parseStore_rebuilds (hop : opcodeF w = 0b0100011#7) : Rebuilds w (parseStore w) := by
  unfold parseStore
  split <;> simp [encode, encS_eq_iff, *]

theorem parseStoreFp_rebuilds (hop : opcodeF w = 0b0100111#7) : Rebuilds w (parseStoreFp w) := by
  unfold parseStoreFp
  split <;> simp [encode, encS_eq_iff, *]

theorem parseAmoW_rebuilds (hop : opcodeF w = 0b0101111#7) (hf3 : funct3F w = 0b010#3) : Rebuilds w (parseAmoW w) := by
  unfold parseAmoW
  repeat' split
  all_goals simp [encode, encA_eq_iff, *]

theorem parseAmoD_rebuilds (hop : opcodeF w = 0b0101111#7) (hf3 : funct3F w = 0b011#3) : Rebuilds w (parseAmoD w) := by
  unfold parseAmoD
  repeat' split
  all_goals simp [encode, encA_eq_iff, *]

theorem parseOp_rebuilds (hop : opcodeF w = 0b0110011#7) : Rebuilds w (parseOp w) := by
  unfold parseOp
  repeat' split
  all_goals simp [encode, encR_eq_iff, *]

theorem parseOp32_rebuilds (hop : opcodeF w = 0b0111011#7) : Rebuilds w (parseOp32 w) := by
  unfold parseOp32
  repeat' split
  all_goals simp [encode, encR_eq_iff, *]

theorem parseMadd_rebuilds (hop : opcodeF w = 0b1000011#7) : Rebuilds w (parseMadd w) := by
  unfold parseMadd
  split <;> simp [encode, encR_eq_iff, append_eq_funct7F_iff, *]

theorem parseMsub_rebuilds (hop : opcodeF w = 0b1000111#7) : Rebuilds w (parseMsub w) := by
  unfold parseMsub
  split <;> simp [encode, encR_eq_iff, append_eq_funct7F_iff, *]

theorem parseNmsub_rebuilds (hop : opcodeF w = 0b1001011#7) : Rebuilds w (parseNmsub w) := by
  unfold parseNmsub
  split <;> simp [encode, encR_eq_iff, append_eq_funct7F_iff, *]

theorem parseNmadd_rebuilds (hop : opcodeF w = 0b1001111#7) : Rebuilds w (parseNmadd w) := by
  unfold parseNmadd
  split <;> simp [encode, encR_eq_iff, append_eq_funct7F_iff, *]

theorem parseOpFp_rebuilds (hop : opcodeF w = 0b1010011#7) : Rebuilds w (parseOpFp w) := by
  unfold parseOpFp
  repeat' split
  all_goals simp [encode, encR_eq_iff, *]

theorem parseBranch_rebuilds (hop : opcodeF w = 0b1100011#7) : Rebuilds w (parseBranch w) := by
  unfold parseBranch
  split <;> simp [encode, encB_eq_iff, *]

theorem parseSystem_rebuilds (hop : opcodeF w = 0b1110011#7) : Rebuilds w (parseSystem w) := by
  unfold parseSystem
  repeat' split
  all_goals simp [encode, encI_eq_iff, encR_eq_iff, *]

/-- Every row of the 32-bit opcode map, by its major opcode. -/
theorem parse32_rebuilds (w : BitVec 32) : Rebuilds w (parse32 w) := by
  unfold parse32
  split
  · exact parseLoad_rebuilds ‹_›
  · exact parseLoadFp_rebuilds ‹_›
  · exact parseMiscMem_rebuilds ‹_›
  · exact parseOpImm_rebuilds ‹_›
  · simp [encode, encU_eq_iff, *]
  · exact parseOpImm32_rebuilds ‹_›
  · exact parseStore_rebuilds ‹_›
  · exact parseStoreFp_rebuilds ‹_›
  · rename_i hop
    split
    · exact parseAmoW_rebuilds hop ‹_›
    · exact parseAmoD_rebuilds hop ‹_›
    · exact rebuilds_none
  · exact parseOp_rebuilds ‹_›
  · simp [encode, encU_eq_iff, *]
  · exact parseOp32_rebuilds ‹_›
  · exact parseMadd_rebuilds ‹_›
  · exact parseMsub_rebuilds ‹_›
  · exact parseNmsub_rebuilds ‹_›
  · exact parseNmadd_rebuilds ‹_›
  · exact parseOpFp_rebuilds ‹_›
  · exact parseBranch_rebuilds ‹_›
  · split <;> simp [encode, encI_eq_iff, *]
  · simp [encode, encJ_eq_iff, *]
  · exact parseSystem_rebuilds ‹_›
  · exact rebuilds_none

end

/-! ### The 16-bit quadrants -/

section

variable {w : BitVec 16}

/-- The 16-bit instruction read, if there is one, has the halfword for its encoding. -/
def CRebuilds (w : BitVec 16) (o : Option CInstr) : Prop := ∀ j, o = some j → j.encode = w

@[simp] theorem crebuilds_none : CRebuilds w none := nofun

@[simp] theorem crebuilds_some_iff {j : CInstr} : CRebuilds w (some j) ↔ j.encode = w := by
  simp [CRebuilds]

theorem bits1_cases : ∀ b : BitVec 1, b = 0#1 ∨ b = 1#1 := by decide

theorem bits2_cases : ∀ b : BitVec 2, b = 0b00#2 ∨ b = 0b01#2 ∨ b = 0b10#2 ∨ b = 0b11#2 := by decide

theorem bits3_cases : ∀ b : BitVec 3, b = 0b000#3 ∨ b = 0b001#3 ∨ b = 0b010#3 ∨ b = 0b011#3 ∨ b = 0b100#3 ∨
    b = 0b101#3 ∨ b = 0b110#3 ∨ b = 0b111#3 := by decide

theorem parseZcb_rebuilds (hop : cOpF w = 0b00#2) (hf3 : cFunct3F w = 0b100#3) : CRebuilds w (parseZcb w) := by
  unfold parseZcb
  split
  case h_2 => rcases bits1_cases (cBit6F w) with h6 | h6 <;> simp [CInstr.encode, encCLH_eq_iff, *]
  case h_4 => split <;> simp [CInstr.encode, encCLH_eq_iff, *]
  all_goals simp [CInstr.encode, encCLB_eq_iff, *]

/-- Quadrant 0, by funct3 and, where they share a row, XLEN. -/
theorem parseQ0_rebuilds (x : Xlen) (hop : cOpF w = 0b00#2) : CRebuilds w (parseQ0 x w) := by
  unfold parseQ0
  rcases bits3_cases (cFunct3F w) with hf3 | hf3 | hf3 | hf3 | hf3 | hf3 | hf3 | hf3 <;> simp only [hf3]
  · simp [CInstr.encode, encCIW_eq_iff, *]
  · simp [CInstr.encode, encCL8_eq_iff, *]
  · simp [CInstr.encode, encCL4_eq_iff, *]
  · cases x <;> simp [CInstr.encode, encCL8_eq_iff, encCL4_eq_iff, *]
  · exact parseZcb_rebuilds hop hf3
  · simp [CInstr.encode, encCL8_eq_iff, *]
  · simp [CInstr.encode, encCL4_eq_iff, *]
  · cases x <;> simp [CInstr.encode, encCL8_eq_iff, encCL4_eq_iff, *]

theorem parseZcbUnary_rebuilds (hop : cOpF w = 0b01#2) (hf3 : cFunct3F w = 0b100#3) (h11 : cBits11F w = 0b11#2)
    (h12 : cBit12F w = 1#1) (h6 : cBits6F w = 0b11#2) : CRebuilds w (parseZcbUnary w) := by
  have hrs2 : cRs2F w = 0b11#2 ++ cLoF w := (append_eq_cRs2F_iff.2 ⟨h6.symm, rfl⟩).symm
  unfold parseZcbUnary
  split <;> simp [CInstr.encode, encC_eq_iff, append_eq_cRdF_iff, *]

theorem parseQ1Alu_rebuilds (hop : cOpF w = 0b01#2) (hf3 : cFunct3F w = 0b100#3) : CRebuilds w (parseQ1Alu w) := by
  unfold parseQ1Alu
  rcases bits2_cases (cBits11F w) with h11 | h11 | h11 | h11 <;> simp only [h11]
  case inr.inr.inr =>
    rcases bits1_cases (cBit12F w) with h12 | h12 <;>
      rcases bits2_cases (cBits6F w) with h6 | h6 | h6 | h6 <;> simp only [h12, h6]
    case inr.inr.inr.inr => exact parseZcbUnary_rebuilds hop hf3 h11 h12 h6
    all_goals simp [CInstr.encode, encC_eq_iff, append_eq_cRdF_iff, append_eq_cRs2F_iff, *]
  all_goals simp [CInstr.encode, encCI_eq_iff, append_eq_cRdF_iff, *]

/-- Quadrant 1, by funct3 and, where they share a row, XLEN or `rd`. -/
theorem parseQ1_rebuilds (x : Xlen) (hop : cOpF w = 0b01#2) : CRebuilds w (parseQ1 x w) := by
  unfold parseQ1
  rcases bits3_cases (cFunct3F w) with hf3 | hf3 | hf3 | hf3 | hf3 | hf3 | hf3 | hf3 <;> simp only [hf3]
  · split <;> simp [CInstr.encode, encCI_eq_iff, *]
  · cases x <;> simp [CInstr.encode, encCJ_eq_iff, encCI_eq_iff, *]
  · simp [CInstr.encode, encCI_eq_iff, *]
  · split <;> simp [CInstr.encode, encC16_eq_iff, encCI_eq_iff, *]
  · exact parseQ1Alu_rebuilds hop hf3
  · simp [CInstr.encode, encCJ_eq_iff, *]
  · simp [CInstr.encode, encCB_eq_iff, *]
  · simp [CInstr.encode, encCB_eq_iff, *]

/-- The index of a `cm.jt` is its five low bits. -/
theorem zeros_append_low {b : BitVec 8} (h : b.toNat < 32) : 0#3 ++ b.extractLsb' 0 5 = b := by
  refine append_eq_iff.2 ⟨?_, rfl⟩
  rw [← BitVec.toNat_inj, BitVec.extractLsb'_toNat, Nat.shiftRight_eq_div_pow, BitVec.toNat_ofNat]
  omega

/-- The rows of Zcmp and Zcmt: table jumps, double moves, pushes and pops. -/
theorem parseZcmpt_rebuilds (hop : cOpF w = 0b10#2) (hf3 : cFunct3F w = 0b101#3) : CRebuilds w (parseZcmpt w) := by
  have hcode : w.extractLsb' 8 5 = cBits12F w ++ w.extractLsb' 8 2 := (append_eq_cmppCode_iff.2 ⟨rfl, rfl⟩).symm
  unfold parseZcmpt
  split
  · split <;> simp [CInstr.encode, encCMJT_eq_iff, zeros_append_low, *]
  · rename_i h12
    obtain ⟨hb12, h11⟩ := append_eq_cBits12F_iff.1 (show 0#1 ++ 0b11#2 = cBits12F w from h12.symm)
    split <;> simp [CInstr.encode, encC_eq_iff, append_eq_cRdF_iff, append_eq_cRs2F_iff, *]
  · split <;> simp [CInstr.encode, encCMPP_eq_iff, *]
  · split <;> simp [CInstr.encode, encCMPP_eq_iff, *]
  · exact crebuilds_none

/-- Quadrant 2, by funct3 and, where they share a row, XLEN, the operands, or Zcmp and Zcmt. -/
theorem parseQ2_rebuilds (x : Xlen) (zc : Bool) (hop : cOpF w = 0b10#2) : CRebuilds w (parseQ2 x zc w) := by
  unfold parseQ2
  rcases bits3_cases (cFunct3F w) with hf3 | hf3 | hf3 | hf3 | hf3 | hf3 | hf3 | hf3 <;> simp only [hf3]
  · simp [CInstr.encode, encCI_eq_iff, *]
  · simp [CInstr.encode, encCSP8_eq_iff, *]
  · simp [CInstr.encode, encCSP4_eq_iff, *]
  · cases x <;> simp [CInstr.encode, encCSP8_eq_iff, encCSP4_eq_iff, *]
  · split
    · split <;> simp [CInstr.encode, encC_eq_iff, *]
    · rename_i hne
      have h12 : cBit12F w = 1#1 := (bits1_cases _).resolve_left hne
      split
      · rename_i hrs2
        split
        · rename_i hrd
          exact crebuilds_some_iff.2 (encC_eq_iff.2 ⟨hf3.symm, h12.symm, hrd.symm, hrs2.symm, hop.symm⟩)
        · simp [CInstr.encode, encC_eq_iff, *]
      · simp [CInstr.encode, encC_eq_iff, *]
  · cases zc
    · simp [CInstr.encode, encCSS8_eq_iff, *]
    · exact parseZcmpt_rebuilds hop hf3
  · simp [CInstr.encode, encCSS4_eq_iff, *]
  · cases x <;> simp [CInstr.encode, encCSS8_eq_iff, encCSS4_eq_iff, *]

theorem parse16_rebuilds (x : Xlen) (zc : Bool) (w : BitVec 16) : CRebuilds w (parse16 x zc w) := by
  unfold parse16
  split
  · exact parseQ0_rebuilds x ‹_›
  · exact parseQ1_rebuilds x ‹_›
  · exact parseQ2_rebuilds x zc ‹_›
  · exact crebuilds_none

end

end Sys2Proof
end

section
/-! The encoder against the decoder (30_encoding.md R190), and the first bits of an encoding (R150). -/

namespace Sys2Proof

/-! ### The first bits -/

/-- The two low bits of a 16-bit encoding are not 11; those of a 32-bit one are, and the three above them are not 111. -/
def Code.FirstBits : Code → Prop
  | .half w => w.extractLsb' 0 2 ≠ 3#2
  | .word w => w.extractLsb' 0 2 = 3#2 ∧ w.extractLsb' 2 3 ≠ 7#3

theorem cOpF_append_ne_three {x : BitVec 14} {op : BitVec 2} (h : op ≠ 3#2) : cOpF (x ++ op) ≠ 3#2 := by
  rwa [cOpF, BitVec.extractLsb'_append_eq_right]

theorem CInstr.cOpF_encode (j : CInstr) : cOpF j.encode ≠ 3#2 := by
  cases j
  case c_ebreak => decide
  all_goals exact cOpF_append_ne_three (by decide)

theorem CInstr.firstBits_encode (j : CInstr) : (Code.half j.encode).FirstBits := j.cOpF_encode

theorem Code.firstBits_append {x : BitVec 25} {op : BitVec 7} (hlen : op.extractLsb' 0 2 = 3#2)
    (hlong : op.extractLsb' 2 3 ≠ 7#3) : (Code.word (x ++ op)).FirstBits := by
  rw [Code.FirstBits, BitVec.extractLsb'_append_eq_of_add_le (by decide),
    BitVec.extractLsb'_append_eq_of_add_le (by decide)]
  exact ⟨hlen, hlong⟩

/-- The 16-bit rows end in their quadrant, the 32-bit rows in their major opcode. -/
theorem firstBits_encode (i : Instr) : (encode i).FirstBits := by
  cases i
  case ecall | ebreak | mret | sret | wfi => exact ⟨rfl, by decide⟩
  any_goals exact CInstr.firstBits_encode _
  all_goals exact Code.firstBits_append rfl (by decide)

/-! ### The obligation -/

theorem encode_toInstr (j : CInstr) : encode j.toInstr = .half j.encode := by
  cases j <;> rfl

/-- The decoder answers what the parser reads or refuses it. -/
theorem parse32_of_decode32 {c : Config} {w : BitVec 32} {i : Instr} (h : decode32 c w = .ok i) : parse32 w = some i := by
  unfold decode32 at h
  split at h
  · cases h
  · split at h
    · cases h
    · cases h; assumption

theorem parse16_of_decode16 {c : Config} {w : BitVec 16} {j : CInstr} (h : decode16 c w = .ok j) :
    parse16 c.xlen (c.extZcmp || c.extZcmt) w = some j := by
  unfold decode16 at h
  split at h
  · cases h
  · split at h
    · cases h
    · cases h; assumption

theorem encode_of_decode {c : Config} {code : Code} {i : Instr} (h : decode c code = .ok i) : encode i = code := by
  cases code with
  | half w =>
    obtain ⟨j, hj, rfl⟩ : ∃ j, decode16 c w = .ok j ∧ j.toInstr = i := by
      simp only [decode] at h
      cases hd : decode16 c w with
      | error r => rw [hd] at h; cases h
      | ok j => rw [hd] at h; exact ⟨j, rfl, Except.ok.inj h⟩
    rw [encode_toInstr, parse16_rebuilds _ _ w j (parse16_of_decode16 hj)]
  | word w => exact parse32_rebuilds w i (parse32_of_decode32 h)

/-- Settles O47: each row of the opcode map reads its operands from the fields its format puts them in, and the major opcode
or the quadrant gives the first bits. -/
theorem decodedInstructionsEncode : Obligations.DecodedInstructionsEncode := by
  unfold Obligations.DecodedInstructionsEncode
  exact ⟨fun c code i h => ⟨encode_of_decode h, Machine.wf_of_decode h⟩, fun _ i _ => firstBits_encode i⟩

end Sys2Proof
end

section
/-! The integer computational instructions of the base (40_rv_i.md R221 to R241): the sums, comparisons and bits they
write, as numbers modulo 2^XLEN. -/

namespace Sys2Proof

namespace Config

/-! ### Sums and comparisons modulo 2^XLEN -/

section

variable (c : Config) {v w : Word} {i j : Int}

theorem toNat_ofInt_modEq (i : Int) : ((BitVec.ofInt 64 i).toNat : Int) ≡ i [ZMOD 2 ^ c.xlen.bits] := by
  rw [BitVec.toNat_ofInt, Int.toNat_of_nonneg (Int.emod_nonneg _ (by decide))]
  exact c.modEq_xlen (Int.mod_modEq _ _)

theorem norm_add (hv : (v.toNat : Int) ≡ i [ZMOD 2 ^ c.xlen.bits]) (hw : (w.toNat : Int) ≡ j [ZMOD 2 ^ c.xlen.bits]) :
    c.norm (v + w) = c.word (i + j) := by
  refine c.norm_of_modEq (i := v.toNat + w.toNat) ?_ (hv.add hw)
  rw [BitVec.ofInt_add, ← eq_ofInt, ← eq_ofInt]

theorem norm_sub (hv : (v.toNat : Int) ≡ i [ZMOD 2 ^ c.xlen.bits]) (hw : (w.toNat : Int) ≡ j [ZMOD 2 ^ c.xlen.bits]) :
    c.norm (v - w) = c.word (i - j) := by
  refine c.norm_of_modEq (i := v.toNat - w.toNat) ?_ (hv.sub hw)
  rw [Int.sub_eq_add_neg, BitVec.ofInt_add, BitVec.ofInt_neg, ← eq_ofInt, ← eq_ofInt, BitVec.sub_eq_add_neg]

theorem toS_imm12 (imm : BitVec 12) : c.toS (imm12 imm) = imm.toInt :=
  c.toS_small _ ⟨le_trans (by decide) imm.le_toInt, lt_of_lt_of_le imm.toInt_lt (by decide)⟩

theorem norm_ltS (v w : Word) : c.norm (boolWord (c.ltS v w)) = if c.toS v < c.toS w then 1 else 0 := by
  rw [norm_boolWord, ltS_eq]; simp only [decide_eq_true_eq]

theorem norm_ltU (v w : Word) : c.norm (boolWord (c.ltU v w)) = if c.toU v < c.toU w then 1 else 0 := by
  rw [norm_boolWord, ltU_eq]; simp only [decide_eq_true_eq]

end

end Config

namespace Machine

section

variable {s : State} {i : Instr} {n : Nat} {rd : Reg} {v : Word} {f : Nat → Bool}

/-! ### Bits -/

theorem State.xbit_of_lt (r : Reg) {k : Nat} (h : k < s.cfg.xlen.bits) : s.xbit r k = (s.rx r).getLsbD k := by
  simp [State.xbit, Config.norm_getLsbD, h]

/-- `put` of a value given by its bits: the form the claims state. -/
theorem put_computesBits (he : exec i s = put n rd v s) (hv : ∀ k < s.cfg.xlen.bits, v.getLsbD k = f k) :
    ComputesBits i s n rd f :=
  ⟨_, s.cfg.hasBits_of v f hv, put_computes he rfl⟩

theorem getLsbD_imm12_of_lt (imm : BitVec 12) {k : Nat} (h : k < s.cfg.xlen.bits) :
    (imm12 imm).getLsbD k = imm.getLsbD (min k 11) :=
  imm12_getLsbD imm k (h.trans_le s.cfg.xlen_le)

end

/-! ### The obligations -/

/-- Settles O1: each instruction is a `put`, of a sum, a comparison, a shift or a bitwise operation. -/
theorem immediateInstructionsCompute : Obligations.ImmediateInstructionsCompute := by
  unfold Obligations.ImmediateInstructionsCompute
  intro s rd rs1 imm up shamt
  have himm : (s.cfg.toU (imm12 imm) : Int) = imm.toInt % 2 ^ s.xlen := s.cfg.toU_ofInt _
  refine ⟨put_computes rfl ?lui, put_computes rfl ?auipc, put_computes rfl ?addi, put_computes rfl ?slti,
    put_computes rfl ?sltiu, put_computesBits rfl fun k hk => ?xori, put_computesBits rfl fun k hk => ?ori,
    put_computesBits rfl fun k hk => ?andi, put_computes rfl (s.cfg.norm_shiftLeft _ _),
    put_computes rfl (s.cfg.norm_srl _ _), put_computes rfl (s.cfg.norm_sra _ _)⟩
  case lui => rw [immU_eq, Config.norm_ofInt]
  case auipc => rw [immU_eq]; exact s.cfg.norm_add (Int.ModEq.refl _) (s.cfg.toNat_ofInt_modEq _)
  case addi => exact s.cfg.norm_add (s.cfg.toS_modEq _) (s.cfg.toNat_ofInt_modEq _)
  case slti => rw [Config.norm_ltS, Config.toS_imm12]; rfl
  case sltiu => simp only [Config.norm_ltU, ← himm, Int.ofNat_lt]; rfl
  case xori => rw [BitVec.getLsbD_xor, getLsbD_imm12_of_lt imm hk, State.xbit_of_lt rs1 hk]
  case ori => rw [BitVec.getLsbD_or, getLsbD_imm12_of_lt imm hk, State.xbit_of_lt rs1 hk]
  case andi => rw [BitVec.getLsbD_and, getLsbD_imm12_of_lt imm hk, State.xbit_of_lt rs1 hk]

/-- Settles O2: each instruction is a `put`, of a sum, a comparison, a shift or a bitwise operation. -/
theorem registerInstructionsCompute : Obligations.RegisterInstructionsCompute := by
  unfold Obligations.RegisterInstructionsCompute
  intro s rd rs1 rs2
  have hamount : s.cfg.shiftAmount (s.rx rs2) = s.xu rs2 % s.xlen := s.cfg.shiftAmount_eq _
  refine ⟨put_computes rfl ?add, put_computes rfl ?sub, put_computes rfl ?sll, put_computes rfl (s.cfg.norm_ltS _ _),
    put_computes rfl (s.cfg.norm_ltU _ _), put_computesBits rfl fun k hk => ?xor, put_computes rfl ?srl,
    put_computes rfl ?sra, put_computesBits rfl fun k hk => ?or, put_computesBits rfl fun k hk => ?and⟩
  case add => exact s.cfg.norm_add (s.cfg.toS_modEq _) (s.cfg.toS_modEq _)
  case sub => exact s.cfg.norm_sub (s.cfg.toS_modEq _) (s.cfg.toS_modEq _)
  case sll => rw [hamount]; exact s.cfg.norm_shiftLeft _ _
  case srl => rw [hamount]; exact s.cfg.norm_srl _ _
  case sra => rw [hamount]; exact s.cfg.norm_sra _ _
  case xor => rw [BitVec.getLsbD_xor, State.xbit_of_lt rs1 hk, State.xbit_of_lt rs2 hk]
  case or => rw [BitVec.getLsbD_or, State.xbit_of_lt rs1 hk, State.xbit_of_lt rs2 hk]
  case and => rw [BitVec.getLsbD_and, State.xbit_of_lt rs1 hk, State.xbit_of_lt rs2 hk]

end Machine

end Sys2Proof
end

section
/-! Jumps and branches (40_rv_i.md R272 to R280; 45_c.md R501, R515 to R517, R523, R526): where each goes, and the exception
of a target that may not be fetched from. -/

namespace Sys2Proof.Machine

open Sys2Proof

section

variable {s : State} {i : Instr} {n : Nat} {rd : Reg} {target : Word} {taken : Prop} {o : Int}

/-! ### Jumps -/

/-- The instruction is a jump of `n` bytes to the target that links in `rd`. -/
def State.Jumps (s : State) (i : Instr) (n : Nat) (rd : Reg) (target : Word) : Prop := exec i s = jump n rd target s

theorem State.Jumps.jumpsTo (h : s.Jumps i n rd target) (hf : s.fetchable target) : JumpsTo i s n rd target := by
  unfold JumpsTo; rw [h]; exact (jump_spec n rd target s).1 hf

theorem State.Jumps.traps (h : s.Jumps i n rd target) (hf : ¬ s.fetchable target) :
    Traps i s .instructionAddressMisaligned target :=
  Eq.trans h ((jump_spec n rd target s).2 hf)

/-- An address relative to `pc`, as a number modulo 2^XLEN. -/
theorem State.norm_pc_add (s : State) {offset : Word} (h : offset = BitVec.ofInt 64 o) :
    s.cfg.norm (s.pc + offset) = s.cfg.word (s.pc.toNat + o) :=
  h ▸ s.cfg.norm_add (Int.ModEq.refl _) (s.cfg.toNat_ofInt_modEq o)

theorem State.jumps_jal (s : State) (rd : Reg) (off : BitVec 20) :
    s.Jumps (.jal rd off) 4 rd (s.cfg.word (s.pc.toNat + off.toInt * 2)) :=
  s.norm_pc_add (immJ_eq off) ▸ rfl

theorem State.jumps_jalr (s : State) (rd rs1 : Reg) (imm : BitVec 12) :
    s.Jumps (.jalr rd rs1 imm) 4 rd (s.addr rs1 imm.toInt &&& ~~~1#64) :=
  s.ea_imm12 rs1 imm ▸ rfl

theorem State.jumps_c_jal (s : State) (off : BitVec 11) :
    s.Jumps (.c_jal off) 2 State.ra (s.cfg.word (s.pc.toNat + off.toInt * 2)) :=
  s.norm_pc_add (immCJ_eq off) ▸ rfl

theorem State.jumps_c_j (s : State) (off : BitVec 11) :
    s.Jumps (.c_j off) 2 0 (s.cfg.word (s.pc.toNat + off.toInt * 2)) :=
  s.norm_pc_add (immCJ_eq off) ▸ rfl

theorem State.jumps_c_jr (s : State) (rs1 : Reg) : s.Jumps (.c_jr rs1) 2 0 (s.addr rs1 0 &&& ~~~1#64) :=
  s.ea_eq_addr rs1 (offset := 0) (o := 0) rfl ▸ rfl

theorem State.jumps_c_jalr (s : State) (rs1 : Reg) :
    s.Jumps (.c_jalr rs1) 2 State.ra (s.addr rs1 0 &&& ~~~1#64) :=
  s.ea_eq_addr rs1 (offset := 0) (o := 0) rfl ▸ rfl

/-! ### Branches -/

/-- The instruction is a branch of `n` bytes by `o` that is taken under the condition. -/
def State.Branches (s : State) (i : Instr) (n : Nat) (taken : Prop) (o : Int) : Prop :=
  ∃ b offset, exec i s = branch n b offset s ∧ (b = true ↔ taken) ∧ offset = BitVec.ofInt 64 o

/-- A branch that is not taken goes on whatever its offset (40_rv_i.md R272). -/
theorem State.Branches.goesOn (h : s.Branches i n taken o) (ht : ¬ taken) : Continues i s (s.nextPc n) := by
  obtain ⟨b, offset, he, hb, -⟩ := h
  unfold Continues
  rw [he]
  exact (branch_spec n b offset s).1 (Bool.eq_false_iff.2 (mt hb.1 ht))

theorem State.Branches.goesTo (h : s.Branches i n taken o) (ht : taken)
    (hf : s.fetchable (s.cfg.word (s.pc.toNat + o))) : Continues i s (s.cfg.word (s.pc.toNat + o)) := by
  obtain ⟨b, offset, he, hb, ho⟩ := h
  unfold Continues
  rw [← s.norm_pc_add ho] at hf ⊢
  rw [he]
  exact (branch_spec n b offset s).2.1 (hb.2 ht) hf

theorem State.Branches.traps (h : s.Branches i n taken o) (ht : taken)
    (hf : ¬ s.fetchable (s.cfg.word (s.pc.toNat + o))) :
    Traps i s .instructionAddressMisaligned (s.cfg.word (s.pc.toNat + o)) := by
  obtain ⟨b, offset, he, hb, ho⟩ := h
  rw [← s.norm_pc_add ho] at hf ⊢
  exact he.trans ((branch_spec n b offset s).2.2 (hb.2 ht) hf)

section

variable (s : State) (rs1 rs2 : Reg) (imm : BitVec 12)

theorem State.branches_beq : s.Branches (.beq rs1 rs2 imm) 4 (s.rx rs1 = s.rx rs2) (imm.toInt * 2) :=
  ⟨_, _, rfl, beq_iff_eq, immB_eq imm⟩

theorem State.branches_bne : s.Branches (.bne rs1 rs2 imm) 4 (s.rx rs1 ≠ s.rx rs2) (imm.toInt * 2) :=
  ⟨_, _, rfl, bne_iff_ne, immB_eq imm⟩

theorem State.branches_blt : s.Branches (.blt rs1 rs2 imm) 4 (s.xs rs1 < s.xs rs2) (imm.toInt * 2) :=
  ⟨_, _, rfl, decide_eq_true_iff, immB_eq imm⟩

theorem State.branches_bge : s.Branches (.bge rs1 rs2 imm) 4 (s.xs rs2 ≤ s.xs rs1) (imm.toInt * 2) :=
  ⟨_, _, rfl, by rw [Config.ltS_eq, Bool.not_eq_true', decide_eq_false_iff_not, not_lt]; rfl, immB_eq imm⟩

theorem State.branches_bltu : s.Branches (.bltu rs1 rs2 imm) 4 (s.xu rs1 < s.xu rs2) (imm.toInt * 2) :=
  ⟨_, _, rfl, decide_eq_true_iff, immB_eq imm⟩

theorem State.branches_bgeu : s.Branches (.bgeu rs1 rs2 imm) 4 (s.xu rs2 ≤ s.xu rs1) (imm.toInt * 2) :=
  ⟨_, _, rfl, by rw [Config.ltU_eq, Bool.not_eq_true', decide_eq_false_iff_not, not_lt]; rfl, immB_eq imm⟩

theorem State.branches_c_beqz (r : CReg) (off : BitVec 8) :
    s.Branches (.c_beqz r off) 2 (s.rx r.reg = 0) (off.toInt * 2) :=
  ⟨_, _, rfl, beq_iff_eq, immCB_eq off⟩

theorem State.branches_c_bnez (r : CReg) (off : BitVec 8) :
    s.Branches (.c_bnez r off) 2 (s.rx r.reg ≠ 0) (off.toInt * 2) :=
  ⟨_, _, rfl, bne_iff_ne, immCB_eq off⟩

end

end

/-! ### The obligations -/

/-- Settles O10: each instruction is a jump or a branch, and either goes where its target or its condition says. -/
theorem jumpsAndBranchesGoWhereTheyMust : Obligations.JumpsAndBranchesGoWhereTheyMust := by
  unfold Obligations.JumpsAndBranchesGoWhereTheyMust
  refine ⟨fun s rd rs1 off imm coff => ⟨(s.jumps_jal rd off).jumpsTo, (s.jumps_jalr rd rs1 imm).jumpsTo,
    fun hf => ⟨(s.jumps_c_jal coff).jumpsTo hf, (s.jumps_c_j coff).jumpsTo hf⟩,
    fun hf => ⟨(s.jumps_c_jr rs1).jumpsTo hf, (s.jumps_c_jalr rs1).jumpsTo hf⟩⟩, fun s rs1 rs2 r off coff => ?_⟩
  have goes {i taken} (h : s.Branches i 4 taken (off.toInt * 2)) := And.intro h.goesOn h.goesTo
  have cgoes {i taken} (h : s.Branches i 2 taken (coff.toInt * 2)) := And.intro h.goesOn h.goesTo
  exact ⟨goes (s.branches_beq rs1 rs2 off), goes (s.branches_bne rs1 rs2 off), goes (s.branches_blt rs1 rs2 off),
    goes (s.branches_bge rs1 rs2 off), goes (s.branches_bltu rs1 rs2 off), goes (s.branches_bgeu rs1 rs2 off),
    cgoes (s.branches_c_beqz r coff), cgoes (s.branches_c_bnez r coff)⟩

/-- Settles O11: a jump or a taken branch to a target that may not be fetched from ends in the exception. -/
theorem misalignedTargetsTrap : Obligations.MisalignedTargetsTrap := by
  unfold Obligations.MisalignedTargetsTrap
  intro s rd rs1 rs2 off imm
  refine ⟨(s.jumps_jal rd off).traps, (s.jumps_jalr rd rs1 imm).traps, fun hf => ?_⟩
  exact ⟨((s.branches_beq rs1 rs2 imm).traps · hf), ((s.branches_bne rs1 rs2 imm).traps · hf),
    ((s.branches_blt rs1 rs2 imm).traps · hf), ((s.branches_bge rs1 rs2 imm).traps · hf),
    ((s.branches_bltu rs1 rs2 imm).traps · hf), ((s.branches_bgeu rs1 rs2 imm).traps · hf)⟩

end Sys2Proof.Machine
end

section
/-! The CSR instructions that pass the access check (40_rv_i.md R250 to R256; 10_state.md R80), the fences and `wfi`
(40_rv_i.md R245, R246, R261, R262; 60_exceptions.md R765). -/

namespace Sys2Proof.Machine

open Sys2Proof

/-! ### CSR instructions -/

/-- A write of a CSR leaves the configuration, `pc` and the integer registers. -/
theorem State.csrPut_frame (s : State) (r : Csr) (v : Word) :
    (s.csrPut r v).cfg = s.cfg ∧ (s.csrPut r v).pc = s.pc ∧ (s.csrPut r v).x = s.x := by
  obtain ⟨csr, fl, rm, he⟩ := s.csrPut_eq r v
  rw [he]; exact ⟨rfl, rfl, rfl⟩

/-- The end of a CSR instruction changes `pc` and the count alone (10_state.md R80). -/
theorem csrRetire_done (writes : Bool) (r : Csr) (s : State) :
    ∃ t, csrRetire writes r s = .next t ∧
      t = { s with pc := s.nextPc 4, csr := { s.csr with minstret := t.csr.minstret } } ∧
      t.csr.minstret = if writes = true ∧ r.replacesCount = true then s.csr.minstret else s.retired := by
  rw [← s.after_eq 4]
  obtain ⟨h, hw, hr⟩ | ⟨h, hn⟩ := csrRetire_next writes r s
  · exact ⟨_, h, rfl, (if_pos ⟨hw, hr⟩).symm⟩
  · refine ⟨_, h, ?_, ?_⟩
    · rw [State.ext_count]
    · rw [if_neg (by simpa using hn)]; exact s.count_minstret

/-- From a state `w` that a CSR instruction has written its register in, it writes `x[rd]` and completes. -/
theorem csrRetire_wx_done {s w : State} (hcfg : w.cfg = s.cfg) (hpc : w.pc = s.pc) (hx : w.x = s.x) (writes : Bool)
    (r : Csr) (rd : Reg) (v : Word) :
    ∃ t, csrRetire writes r (w.wx rd v) = .next t ∧
      (∀ k, t.rx k = if k = rd ∧ k ≠ 0#5 then s.cfg.norm v else s.rx k) ∧ t.pc = s.nextPc 4 ∧
      t = { w with x := t.x, pc := t.pc, csr := { w.csr with minstret := t.csr.minstret } } ∧
      t.csr.minstret = if writes = true ∧ r.replacesCount = true then w.csr.minstret else w.retired := by
  obtain ⟨t, he, ht, hcount⟩ := csrRetire_done writes r (w.wx rd v)
  rw [State.wx_csr, State.retired_wx] at hcount
  refine ⟨t, he, fun k => ?_, ?_, ?_, hcount⟩
  · have htx : t.x = (w.wx rd v).x := by rw [ht]
    rw [State.rx_congr _ _ htx, State.rx_wx, hcfg, State.rx_congr _ _ hx]
  · rw [ht]; simp [State.nextPc, hcfg, hpc]
  · generalize t.csr.minstret = count at ht
    rw [ht, State.wx_eq]

section

variable {s : State} {i : Instr} {bits v : Word} {op : CsrOp} {rd : Reg} {a : BitVec 12} {r : Csr}

/-- Past the access check a CSR instruction goes on to its read and its write (40_rv_i.md R250). -/
theorem csrInstr_allowed {writes : Bool} (h : s.csrAccess a writes = some r) :
    csrInstr bits op rd a v writes s =
      csrRetire writes r ((if writes then s.csrPut r (op.apply (s.csrBase r) v) else s).wx rd (s.csrGet r)) := by
  obtain ⟨hn, -⟩ | ⟨r', hr, he⟩ := csrInstr_cases bits op rd a v writes s
  · rw [h] at hn; cases hn
  · rw [h] at hr; cases hr; exact he

theorem csrInstr_writes {writes : Bool} (he : exec i s = csrInstr bits op rd a v writes s) (hw : writes = true)
    (h : s.csrAccess a true = some r) : AccessesCsr i s rd r (some (op.apply (s.csrBase r) v)) := by
  subst hw
  obtain ⟨hcfg, hpc, hx⟩ := s.csrPut_frame r (op.apply (s.csrBase r) v)
  rw [AccessesCsr, he, csrInstr_allowed h]
  exact csrRetire_wx_done hcfg hpc hx true r rd (s.csrGet r)

theorem csrInstr_reads (he : exec i s = csrInstr bits op rd a v false s) (h : s.csrAccess a false = some r) :
    AccessesCsr i s rd r none := by
  rw [AccessesCsr, he, csrInstr_allowed h]
  obtain ⟨t, ht⟩ := csrRetire_wx_done (s := s) rfl rfl rfl false r rd (s.csrGet r)
  exact ⟨t, ht⟩

end

/-- Settles O24: each instruction reads, and writes unless the operand of a `set` or `clear` is zero. -/
theorem csrInstructionsComplete : Obligations.CsrInstructionsComplete := by
  unfold Obligations.CsrInstructionsComplete
  intro s rd rs1 uimm a r
  refine ⟨fun h => ⟨csrInstr_writes (op := .write) rfl rfl h, csrInstr_writes (op := .write) rfl rfl h, fun h0 => ?_,
    fun h0 => ?_⟩, fun h => ⟨csrInstr_reads rfl h, csrInstr_reads rfl h, csrInstr_reads rfl h, csrInstr_reads rfl h⟩⟩
  all_goals exact ⟨csrInstr_writes (op := .set) rfl (bne_iff_ne.2 h0) h,
    csrInstr_writes (op := .clear) rfl (bne_iff_ne.2 h0) h⟩

/-! ### Fences and waits -/

/-- Where `wfi` is legal (60_exceptions.md R765). -/
theorem State.wfiLegal_iff (s : State) :
    s.wfiLegal = true ↔ s.priv = .m ∨ s.csr.mstatus.tw = false ∧ (s.priv = .s ∨ s.cfg.wfiU = true) := by
  unfold State.wfiLegal
  cases s.priv <;> simp

theorem execWfi_legal {s : State} (h : s.wfiLegal = true) :
    execWfi s = .next
      { s with
        waiting := Config.wfiWaits s.draws, pc := s.nextPc 4, csr := { s.csr with minstret := s.retired } } := by
  rw [execWfi, if_pos h, retire_next, State.ext_count, State.after_eq]; rfl

theorem execWfi_illegal {s : State} (h : s.wfiLegal ≠ true) :
    execWfi s = .next (s.take .illegalInstruction (bitsOf .wfi)) := by
  rw [execWfi, if_neg h, illegal_eq]

/-- Where `sfence.vma` is legal (40_rv_i.md R262). -/
def State.FenceLegal (s : State) : Prop :=
  s.cfg.extS = true ∧ (s.priv = .m ∨ s.priv = .s ∧ s.csr.mstatus.tvm = false)

theorem State.fenceLegal_iff (s : State) :
    (s.cfg.extS && (s.priv == .m || (s.priv == .s && !s.csr.mstatus.tvm))) = true ↔ s.FenceLegal := by
  simp [State.FenceLegal]

theorem execSfenceVma_legal {s : State} (h : s.FenceLegal) (rs1 rs2 : Reg) : execSfenceVma rs1 rs2 s = retire 4 s := by
  rw [execSfenceVma, if_pos (s.fenceLegal_iff.2 h)]

theorem execSfenceVma_illegal {s : State} (h : ¬ s.FenceLegal) (rs1 rs2 : Reg) :
    execSfenceVma rs1 rs2 s = .next (s.take .illegalInstruction (bitsOf (.sfence_vma rs1 rs2))) := by
  rw [execSfenceVma, if_neg (mt s.fenceLegal_iff.1 h), illegal_eq]

/-- Settles O31: past its check a fence has nothing to do and `wfi` may wait; otherwise the instruction is illegal. -/
theorem fencesAndWaitsComplete : Obligations.FencesAndWaitsComplete := by
  unfold Obligations.FencesAndWaitsComplete
  refine ⟨fun s fm pred succ imm rs1 rs2 rd => ⟨retire_continues 4 s, retire_continues 4 s, fun hS hp => ?_,
    fun h => ?_⟩, fun s rs1 rs2 => ⟨fun h => ?_, fun h => ?_⟩⟩
  · obtain ⟨t, ht, hrest⟩ := retire_continues 4 s
    exact ⟨t, (execSfenceVma_legal ⟨hS, hp⟩ rs1 rs2).trans ht, hrest⟩
  · exact ⟨_, execWfi_legal (s.wfiLegal_iff.2 h)⟩
  · refine execWfi_illegal (mt s.wfiLegal_iff.1 ?_)
    obtain ⟨hm, htw⟩ | ⟨hu, hoff⟩ := h
    · simp [hm, htw]
    · simp [hu, hoff]
  · refine execSfenceVma_illegal ?_ rs1 rs2
    obtain hu | ⟨hs, htvm⟩ | hS := h
    · simp [State.FenceLegal, hu]
    · simp [State.FenceLegal, hs, htvm]
    · simp [State.FenceLegal, hS]

end Sys2Proof.Machine
end

section
/-! The W instructions (41_rv64i.md R300 to R308): sums, differences and shifts of the low 32 bits of their sources, as
numbers modulo 2^32, sign-extended. -/

namespace Sys2Proof

/-! ### Sign-extended 32-bit results -/

section

variable (w : Word) (n : Nat)

/-- Sign-extending the low 32 bits of a value keeps the number modulo 2^32. -/
theorem sext32_ofInt (i : Int) : sext32 (BitVec.ofInt 64 i) = word32 i := by
  rw [sext32_eq, BitVec.toNat_ofInt, Int.toNat_of_nonneg (Int.emod_nonneg _ (by decide))]
  exact word32_congr (Int.emod_emod_of_dvd i (by decide))

theorem sext32_add_ofInt (i : Int) : sext32 (w + BitVec.ofInt 64 i) = word32 (w.toNat + i) := by
  rw [← sext32_ofInt, BitVec.ofInt_add, ← Config.eq_ofInt]

theorem sext32_sub_ofInt (i : Int) : sext32 (w - BitVec.ofInt 64 i) = word32 (w.toNat - i) := by
  rw [BitVec.sub_eq_add_neg, ← BitVec.ofInt_neg, sext32_add_ofInt, Int.sub_eq_add_neg]

theorem signExtend_shiftLeft32 : (w.setWidth 32 <<< n).signExtend 64 = word32 (w.toNat * 2 ^ n) := by
  rw [signExtend32_eq, BitVec.toNat_shiftLeft, BitVec.toNat_setWidth, Nat.shiftLeft_eq]
  refine word32_congr ?_
  push_cast
  exact (Int.mod_modEq _ _).trans ((Int.mod_modEq _ _).mul_right _)

/-- The zeros that enter at bit 31 make the shift a quotient of the unsigned low half. -/
theorem signExtend_ushiftRight32 : (w.setWidth 32 >>> n).signExtend 64 = word32 (w.toNat % 2 ^ 32 / 2 ^ n) := by
  rw [signExtend32_eq, BitVec.toNat_ushiftRight, BitVec.toNat_setWidth, Nat.shiftRight_eq_div_pow]
  push_cast
  rfl

/-- The copies of bit 31 that enter make the shift a quotient, rounded down, of the signed low half. -/
theorem signExtend_sshiftRight32 :
    ((w.setWidth 32).sshiftRight n).signExtend 64 = word32 ((w.toNat : Int).bmod (2 ^ 32) / 2 ^ n) := by
  have hv : ((w.setWidth 32).sshiftRight n).toInt = (w.toNat : Int).bmod (2 ^ 32) / 2 ^ n := by
    rw [BitVec.toInt_sshiftRight, Int.shiftRight_eq_div_pow, BitVec.toInt_eq_toNat_bmod, BitVec.toNat_setWidth,
      Int.natCast_emod, Int.emod_bmod]
    push_cast
    rfl
  rw [word32_ofInt32, ← hv, BitVec.ofInt_toInt]

end

namespace Machine

section

variable {s : State}

/-! ### XLEN = 64 -/

theorem State.xu_rv64 (hx : s.cfg.xlen = .rv64) (r : Reg) : s.xu r = (s.rx r).toNat := by
  rw [State.xu, Config.toU, Config.norm, hx]

/-- `put` of a value on XLEN = 64, where nothing is cut off. -/
theorem put_computes_rv64 {i : Instr} {n : Nat} {rd : Reg} {v w : Word} (hx : s.cfg.xlen = .rv64)
    (he : exec i s = put n rd v s) (hv : v = w) : Computes i s n rd w :=
  put_computes he (by rw [Config.norm, hx, hv])

end

/-! ### The obligation -/

/-- Settles O3: each instruction is a `put` of the sign-extended low half of a sum, of a difference or of a shift. -/
theorem wordInstructionsCompute : Obligations.WordInstructionsCompute := by
  unfold Obligations.WordInstructionsCompute
  intro s rd rs1 rs2 imm shamt hx
  have hamount : ((s.rx rs2).setWidth 5).toNat = (s.rx rs2).toNat % 32 := BitVec.toNat_setWidth _ _
  simp only [State.xu_rv64 hx]
  refine ⟨put_computes_rv64 hx rfl (sext32_add_ofInt _ _), put_computes_rv64 hx rfl (signExtend_shiftLeft32 _ _),
    put_computes_rv64 hx rfl (signExtend_ushiftRight32 _ _), put_computes_rv64 hx rfl (signExtend_sshiftRight32 _ _),
    put_computes_rv64 hx rfl ?addw, put_computes_rv64 hx rfl ?subw, put_computes_rv64 hx rfl ?sllw,
    put_computes_rv64 hx rfl ?srlw, put_computes_rv64 hx rfl ?sraw⟩
  case addw => rw [← sext32_add_ofInt, ← Config.eq_ofInt]
  case subw => rw [← sext32_sub_ofInt, ← Config.eq_ofInt]
  case sllw => rw [hamount, signExtend_shiftLeft32]
  case srlw => rw [hamount, signExtend_ushiftRight32]
  case sraw => rw [hamount, signExtend_sshiftRight32]

end Machine

end Sys2Proof
end

section
/-! The multiplications and divisions (42_m.md R321 to R334): the products modulo 2^XLEN and 2^32, and the quotients and
remainders of the model against those with the corner cases of R321. -/

namespace Sys2Proof

/-! ### Products -/

theorem Config.norm_mul (c : Config) {v w : Word} {i j : Int}
    (hv : (v.toNat : Int) ≡ i [ZMOD 2 ^ c.xlen.bits]) (hw : (w.toNat : Int) ≡ j [ZMOD 2 ^ c.xlen.bits]) :
    c.norm (v * w) = c.word (i * j) := by
  refine c.norm_of_modEq (i := v.toNat * w.toNat) ?_ (hv.mul hw)
  rw [BitVec.ofInt_mul, ← eq_ofInt, ← eq_ofInt]

theorem Config.norm_ofNat (c : Config) (n : Nat) : c.norm (BitVec.ofNat 64 n) = c.word n := by
  rw [← BitVec.ofInt_natCast, norm_ofInt]

theorem sext32_mul (v w : Word) : sext32 (v * w) = word32 (v.toNat * w.toNat) := by
  rw [← sext32_ofInt, BitVec.ofInt_mul, ← Config.eq_ofInt, ← Config.eq_ofInt]

/-! ### Quotients and remainders (42_m.md R321) -/

/-- Only the overflow case differs: `2^(l-1)` where R321 says `-2^(l-1)`, the same number of `l` bits. -/
theorem divS_modEq_quotientS {l : Nat} (hl : 0 < l) (a b : Int) : divS a b ≡ quotientS l a b [ZMOD 2 ^ l] := by
  unfold divS quotientS
  split
  · rfl
  · split
    next hover =>
      obtain ⟨rfl, rfl⟩ := hover
      have hpow : (2 : Int) ^ l = 2 * 2 ^ (l - 1) := by rw [← pow_succ', Nat.sub_add_cancel hl]
      rw [Int.tdiv_neg, Int.tdiv_one, neg_neg, Int.modEq_iff_dvd, hpow]
      exact ⟨-1, by ring⟩
    next => rfl

theorem remS_eq_remainderS (l : Nat) (a b : Int) : remS a b = remainderS l a b := by
  unfold remS remainderS
  split
  · rfl
  · split
    next hover =>
      obtain ⟨-, rfl⟩ := hover
      rw [Int.tmod_neg, Int.tmod_one]
    next => exact Int.tmod_def a b

theorem divU_cast (l a b : Nat) : (divU l a b : Int) = if b = 0 then 2 ^ l - 1 else (a : Int) / b := by
  unfold divU
  split
  · rw [Nat.cast_sub Nat.one_le_two_pow]; push_cast; rfl
  · exact Int.natCast_div a b

theorem remU_cast (a b : Nat) : (remU a b : Int) = if b = 0 then (a : Int) else (a : Int) % b := by
  unfold remU
  split
  · rfl
  · exact Int.natCast_mod a b

namespace Machine

theorem low32S_eq (w : Word) : low32S w = (w.toNat : Int).bmod (2 ^ 32) := by
  rw [low32S, BitVec.toInt_eq_toNat_bmod, BitVec.toNat_setWidth, Int.natCast_emod, Int.emod_bmod]

theorem low32U_eq (w : Word) : low32U w = w.toNat % 2 ^ 32 := BitVec.toNat_setWidth _ _

theorem signExtend_divS (a b : Int) : (BitVec.ofInt 32 (divS a b)).signExtend 64 = word32 (quotientS 32 a b) := by
  rw [← word32_ofInt32]; exact word32_congr (divS_modEq_quotientS (by decide) a b)

theorem signExtend_ofNat32 (n : Nat) : (BitVec.ofNat 32 n).signExtend 64 = word32 n := by
  rw [word32_ofInt32, BitVec.ofInt_natCast]

/-! ### The obligation -/

/-- Settles O4: each instruction is a `put`, of a part of a product, of a quotient or of a remainder. -/
theorem multiplicationsAndDivisionsCompute : Obligations.MultiplicationsAndDivisionsCompute := by
  unfold Obligations.MultiplicationsAndDivisionsCompute
  refine ⟨fun s rd rs1 rs2 => ?products, fun s rd rs1 rs2 => ?quotients⟩
  case products =>
    refine ⟨put_computes rfl (s.cfg.norm_mul (s.cfg.toS_modEq _) (s.cfg.toS_modEq _)),
      put_computes rfl (s.cfg.norm_ofInt _), put_computes rfl (s.cfg.norm_ofInt _), put_computes rfl ?mulhu,
      fun hx => put_computes_rv64 hx rfl ?mulw⟩
    case mulhu => rw [Config.norm_ofNat]; push_cast; rfl
    case mulw => simp only [State.xu_rv64 hx, sext32_mul]
  case quotients =>
    refine ⟨put_computes rfl ?div, put_computes rfl ?divu, put_computes rfl ?rem, put_computes rfl ?remu,
      fun hx => ?words⟩
    case div =>
      rw [Config.norm_ofInt]
      exact s.cfg.word_congr (divS_modEq_quotientS (by cases s.cfg.xlen <;> decide) _ _)
    case divu => rw [Config.norm_ofNat, divU_cast]; rfl
    case rem => rw [Config.norm_ofInt, remS_eq_remainderS s.xlen]; rfl
    case remu => rw [Config.norm_ofNat, remU_cast]; rfl
    case words =>
      simp only [State.xu_rv64 hx]
      refine ⟨put_computes_rv64 hx rfl ?divw, put_computes_rv64 hx rfl ?divuw, put_computes_rv64 hx rfl ?remw,
        put_computes_rv64 hx rfl ?remuw⟩
      case divw => rw [signExtend_divS, low32S_eq, low32S_eq]
      case divuw => rw [signExtend_ofNat32, divU_cast, low32U_eq, low32U_eq]; push_cast; rfl
      case remw => rw [← word32_ofInt32, remS_eq_remainderS 32, low32S_eq, low32S_eq]
      case remuw => rw [signExtend_ofNat32, remU_cast, low32U_eq, low32U_eq]; push_cast; rfl

end Machine

end Sys2Proof
end

section
/-! The atomic instructions on main memory (43_a.md R351 to R381): what `lr`, `sc` and an AMO do once the address passes
its checks. -/

namespace Sys2Proof.Machine

open Sys2Proof

section

variable {s t u : State} {i : Instr} {n pa : Nat} {rd rs1 rs2 : Reg} {va v w next : Word}

/-! ### The shapes past their checks -/

theorem loadReserved_of_alignedAddr (ha : s.alignedAddr .lr va n = .ok pa) (ext : Word → Word) :
    loadReserved rd va n ext s = put 4 rd (ext (s.physRead .lr va none pa n)) { s with resv := some (va, n) } := by
  obtain ⟨e, he, -⟩ | ⟨pa', hpa, hlr⟩ := loadReserved_cases rd va n ext s
  · rw [ha] at he; cases he
  · rw [ha] at hpa; cases hpa; exact hlr

theorem storeConditional_of_alignedAddr (ha : s.alignedAddr .sc va n = .ok pa) :
    storeConditional rd va n v s =
      if s.reserved va n = true ∧ Config.scFails s.draws = false then
        put 4 rd 0 { s.physWrite pa n v with resv := none }
      else put 4 rd 1 { s with resv := none } := by
  obtain ⟨e, he, -⟩ | ⟨pa', hpa, hres, hdraw, hsc⟩ | ⟨pa', -, hfail, hsc⟩ := storeConditional_cases rd va n v s
  · rw [ha] at he; cases he
  · rw [ha] at hpa; cases hpa
    rw [if_pos ⟨hres, hdraw⟩, hsc]
  · rw [if_neg (by rintro ⟨hres, hdraw⟩; simp [hres, hdraw] at hfail), hsc]

theorem amo_of_alignedAddr (ha : s.alignedAddr .amo va n = .ok pa) (ext : Word → Word) (op : Word → Word → Word) :
    amo rd va n ext op v s =
      put 4 rd (ext (s.physRead .amo va none pa n)) (s.physWrite pa n (op (s.physRead .amo va none pa n) v)) := by
  obtain ⟨e, he, -⟩ | ⟨pa', hpa, hamo⟩ := amo_cases rd va n ext op v s
  · rw [ha] at he; cases he
  · rw [ha] at hpa; cases hpa; exact hamo

/-! ### What they write -/

theorem WroteX.mem (h : WroteX u t next rd v) : t.mem = u.mem := by rw [h.rest]

/-- `put` of a value that narrows to `w`. -/
theorem put_wrote_of_norm (hv : u.cfg.norm v = w) : ∃ t, put n rd v u = .next t ∧ WroteX u t (u.nextPc n) rd w :=
  hv ▸ put_wrote n rd v u

/-- What an atomic load of main memory puts in the register (43_a.md R353, R357). -/
theorem norm_ext_memRead {c : Config} {ext : Word → Word} (hext : SignExtends c n ext) (hn : n ≤ 8) (m : List Host.Cell) :
    c.norm (ext (memRead m pa n)) = c.word (leInt m pa n) := by
  rw [hext, memRead_toNat m pa n hn]; rfl

theorem storedBytes_of_mem (h : t.mem = memWrite s.mem pa n v) : StoredBytes s t pa n v := fun a => by
  rw [h, memGet_memWrite]

/-! ### The instructions -/

/-- `lr` reads main memory and registers its reservation (43_a.md R353). -/
theorem lr_main (h : lrOf i = some (rd, rs1, n)) (ha : s.alignedAddr .lr (s.rx rs1) n = .ok pa) (hm : s.inMain pa n) :
    ∃ t, exec i s = .next t ∧ t.resv = some (s.rx rs1, n) ∧
      WroteX { s with resv := t.resv } t (s.nextPc 4) rd (s.cfg.word (leInt s.mem pa n)) := by
  obtain ⟨hn, ext, hexec, hext⟩ := exec_of_lrOf (s := s) h
  rw [loadReserved_of_alignedAddr ha, State.physRead_main hm] at hexec
  obtain ⟨t, ht, hwrote⟩ := put_wrote_of_norm (n := 4) (rd := rd) (u := { s with resv := some (s.rx rs1, n) })
    (norm_ext_memRead hext hn s.mem)
  refine ⟨t, hexec.trans ht, hwrote.resv, ?_⟩
  rw [show t.resv = _ from hwrote.resv]
  exact hwrote

/-- `sc` under a covering reservation that the draw lets succeed stores its value in main memory (43_a.md R354). -/
theorem sc_main_succeeds (h : scOf i = some (rd, rs1, rs2, n)) (ha : s.alignedAddr .sc (s.rx rs1) n = .ok pa)
    (hm : s.inMain pa n) (hok : s.reserved (s.rx rs1) n = true ∧ Config.scFails s.draws = false) :
    ∃ t, exec i s = .next t ∧ t.resv = none ∧ StoredBytes s t pa n (s.rx rs2) ∧
      WroteX { s with resv := none, mem := t.mem } t (s.nextPc 4) rd 0 := by
  have hexec := exec_of_scOf (s := s) h
  rw [storeConditional_of_alignedAddr ha, if_pos hok, State.physWrite_main hm] at hexec
  obtain ⟨t, ht, hwrote⟩ := put_wrote_of_norm (n := 4) (rd := rd)
    (u := { s with resv := none, mem := memWrite s.mem pa n (s.rx rs2) }) (s.cfg.norm_of_lt (w := 0) (by decide))
  have hmem : t.mem = memWrite s.mem pa n (s.rx rs2) := hwrote.mem
  refine ⟨t, hexec.trans ht, hwrote.resv, storedBytes_of_mem hmem, ?_⟩
  rw [hmem]
  exact hwrote

/-- `sc` without a covering reservation, or that the draw lets fail, stores nothing (43_a.md R355). -/
theorem sc_fails (h : scOf i = some (rd, rs1, rs2, n)) (ha : s.alignedAddr .sc (s.rx rs1) n = .ok pa)
    (hno : ¬ (s.reserved (s.rx rs1) n = true ∧ Config.scFails s.draws = false)) :
    ∃ t, exec i s = .next t ∧ t.resv = none ∧ WroteX { s with resv := none } t (s.nextPc 4) rd 1 := by
  have hexec := exec_of_scOf (s := s) h
  rw [storeConditional_of_alignedAddr ha, if_neg hno] at hexec
  obtain ⟨t, ht, hwrote⟩ := put_wrote_of_norm (n := 4) (rd := rd) (u := { s with resv := none })
    (s.cfg.norm_of_lt (w := 1) (by decide))
  exact ⟨t, hexec.trans ht, hwrote.resv, hwrote⟩

/-- An AMO on main memory: a read, the operator of its row of the table, and a write (43_a.md R357). -/
theorem amo_main {a : AmoOp} (h : amoOf i = some a) (ha : s.alignedAddr .amo (s.rx a.rs1) a.bytes = .ok pa)
    (hm : s.inMain pa a.bytes) :
    ∃ t, exec i s = .next t ∧
      StoredBytes s t pa a.bytes
        (BitVec.ofNat 64 (a.op (leNat s.mem pa a.bytes) ((s.rx a.rs2).toNat % 2 ^ (8 * a.bytes)))) ∧
      WroteX { s with mem := t.mem } t (s.nextPc 4) a.rd (s.cfg.word (leInt s.mem pa a.bytes)) := by
  obtain ⟨hn, ext, op, hexec, hext, hop⟩ := exec_of_amoOf (s := s) h
  rw [amo_of_alignedAddr ha, State.physRead_main hm, State.physWrite_main hm, hop _ _ (memRead_lt s.mem pa a.bytes),
    memRead_toNat _ _ _ hn] at hexec
  obtain ⟨t, ht, hwrote⟩ := put_wrote_of_norm (n := 4) (rd := a.rd)
    (u := { s with mem := memWrite s.mem pa a.bytes _ }) (norm_ext_memRead hext hn s.mem)
  have hmem := hwrote.mem
  refine ⟨t, hexec.trans ht, storedBytes_of_mem hmem, ?_⟩
  rw [hmem]
  exact hwrote

end

/-! ### The obligations -/

/-- Settles O34: past the checks an `lr` is a read that writes the reservation, and an `sc` is a store or a failure by the
reservation and the draw. -/
theorem loadReservedAndStoreConditionalComplete : Obligations.LoadReservedAndStoreConditionalComplete := by
  unfold Obligations.LoadReservedAndStoreConditionalComplete
  refine ⟨fun s i rd rs1 n pa h ha hm => lr_main h ha hm, fun s i rd rs1 rs2 n pa h ha hm => ?_⟩
  simp only [← State.reserved_iff]
  by_cases hok : s.reserved (s.rx rs1) n = true ∧ Config.scFails s.draws = false
  · obtain ⟨t, ht, hresv, hstored⟩ := sc_main_succeeds h ha hm hok
    refine ⟨t, ht, hresv, fun _ => hstored, fun hfail => absurd hok ?_⟩
    rintro ⟨hres, hdraw⟩
    simp [hres, hdraw] at hfail
  · obtain ⟨t, ht, hresv, hwrote⟩ := sc_fails h ha hok
    exact ⟨t, ht, hresv, fun h => absurd h hok, fun _ => hwrote⟩

/-- Settles O35: each row of the table is an `amo` on main memory. -/
theorem atomicOperationsComplete : Obligations.AtomicOperationsComplete := by
  unfold Obligations.AtomicOperationsComplete
  exact fun s i a pa h ha hm => amo_main h ha hm

end Sys2Proof.Machine
end

section
/-! Words of the spec's examples through the decoder (30_encoding.md R151 to R170). -/

namespace Sys2Proof

/-- Settles O48: each word is evaluated, the 32-bit ones, the 16-bit ones, and those of Zcmp and Zcmt under a configuration
that has them. -/
theorem writtenWordsDecode : Obligations.WrittenWordsDecode := by
  unfold Obligations.WrittenWordsDecode
  refine ⟨?words, ?halves, rfl, rfl, rfl⟩
  case words => decide
  case halves => decide

end Sys2Proof
end

section
/-! The floating-point instructions by their shapes (44_fd.md R391, R394, R395): what one that passes its checks writes, and
the illegal instruction of one that does not. -/

namespace Sys2Proof.Machine

open Sys2Proof

section

variable {s : State} {i : Instr} {rd : Reg} {f : Fmt} {bits : Word} {rm : BitVec 3} {mode : RMode} {r : Word × Flags}

/-! ### What they write -/

/-- An accrual changes `fflags` and `mstatus.FS` alone. -/
theorem State.accrue_eq (s : State) (fl : Flags) :
    s.accrue fl =
      { s with
        fflags := s.fflags ||| fl
        csr := { s.csr with mstatus := { s.csr.mstatus with fs := (s.accrue fl).csr.mstatus.fs } } } := by
  by_cases h : fl = 0
  · rw [State.accrue, if_pos h, h, show s.fflags ||| (0 : Flags) = s.fflags from BitVec.or_zero]
  · rw [State.accrue, if_neg h]

theorem putFp_computesF (he : exec i s = putFp f rd r s) : ComputesF i s f rd r := by
  refine ⟨_, he, ⟨?rest, fun a => by simp, ?count, ?pc⟩, fun k => ?x, fun k => ?f, ?flags, ?fs⟩
  case rest => rw [State.ext_count, State.accrue_eq]; rfl
  case count => simp [State.retired]
  case pc => simp [State.after, ← State.after_eq s 4]
  case x => exact State.rx_congr _ _ (by simp) k
  case f =>
    rw [← State.accrue_cfg s r.2, ← State.rf_accrue s r.2 k, ← State.rf_wf]
    exact State.rf_congr _ _ (by simp) k
  case flags => simp
  case fs => rw [State.ext_count]; rfl

theorem putFpInt_computesFX (he : exec i s = putFpInt rd r s) : ComputesFX i s rd r := by
  refine ⟨_, he, ⟨?rest, fun a => by simp, ?count, ?pc⟩, fun k => ?f, fun k => ?x, ?flags, ?fs⟩
  case rest => rw [State.ext_count, State.wx_eq, State.accrue_eq]
  case count => simp [State.retired]
  case pc => simp [State.after, ← State.after_eq s 4]
  case f => exact State.rf_congr _ _ (by simp) k
  case x =>
    rw [← State.accrue_cfg s r.2, ← State.rx_accrue s r.2 k, ← State.rx_wx]
    exact State.rx_congr _ _ (by simp) k
  case flags => simp
  case fs =>
    rw [State.ext_count]
    simp only [State.wx_csr, State.accrue_mstatus]
    split <;> rfl

/-! ### The checks -/

theorem fpRounded_of_mode (on : s.csr.mstatus.fs ≠ 0) (hm : s.roundingMode rm = some mode) (bits : Word)
    (k : RMode → Result) : fpRounded bits rm s k = k mode := by
  obtain ⟨hbad, -⟩ | ⟨mode', -, hmode', h⟩ := fpRounded_cases bits rm s k
  · rw [hm] at hbad; exact hbad.elim (absurd · on) nofun
  · rw [hm] at hmode'; cases hmode'; exact h

section

variable (on : s.csr.mstatus.fs ≠ 0)
include on

theorem computesF_of_guard (he : exec i s = fpGuard bits s (putFp f rd r s)) : ComputesF i s f rd r :=
  putFp_computesF (he.trans (fpGuard_of_on bits on _))

theorem computesFX_of_guard (he : exec i s = fpGuard bits s (putFpInt rd r s)) : ComputesFX i s rd r :=
  putFpInt_computesFX (he.trans (fpGuard_of_on bits on _))

variable {k : RMode → Result} (hm : s.roundingMode rm = some mode) (he : exec i s = fpRounded bits rm s k)
include hm he

theorem computesF_of_rounded (hk : k mode = putFp f rd r s) : ComputesF i s f rd r :=
  putFp_computesF (he.trans ((fpRounded_of_mode on hm bits k).trans hk))

theorem computesFX_of_rounded (hk : k mode = putFpInt rd r s) : ComputesFX i s rd r :=
  putFpInt_computesFX (he.trans ((fpRounded_of_mode on hm bits k).trans hk))

end

/-! ### Illegal instructions -/

theorem exec_of_isFloatWithoutMode (h : isFloatWithoutMode i = true) (s : State) :
    ∃ k, exec i s = fpGuard (encode i).bits s k := by
  cases i with
  | fsgnj_s | fsgnjn_s | fsgnjx_s | fmin_s | fmax_s | feq_s | flt_s | fle_s | fclass_s | fmv_x_w | fmv_w_x
    | fsgnj_d | fsgnjn_d | fsgnjx_d | fmin_d | fmax_d | feq_d | flt_d | fle_d | fclass_d | fmv_x_d | fmv_d_x
    | fsgnj_h | fsgnjn_h | fsgnjx_h | fmin_h | fmax_h | feq_h | flt_h | fle_h | fclass_h | fmv_x_h | fmv_h_x
    | flw | fsw | fld | fsd | flh | fsh | c_fld | c_flw | c_fsd | c_fsw | c_fldsp | c_flwsp | c_fsdsp | c_fswsp =>
    exact ⟨_, rfl⟩
  | _ => cases h

theorem exec_of_rmOf (h : rmOf i = some rm) (s : State) : ∃ k, exec i s = fpRounded (encode i).bits rm s k := by
  cases i with
  | fmadd_s | fmsub_s | fnmsub_s | fnmadd_s | fadd_s | fsub_s | fmul_s | fdiv_s | fsqrt_s | fcvt_w_s | fcvt_wu_s
    | fcvt_l_s | fcvt_lu_s | fcvt_s_w | fcvt_s_wu | fcvt_s_l | fcvt_s_lu
    | fmadd_d | fmsub_d | fnmsub_d | fnmadd_d | fadd_d | fsub_d | fmul_d | fdiv_d | fsqrt_d | fcvt_w_d | fcvt_wu_d
    | fcvt_l_d | fcvt_lu_d | fcvt_d_w | fcvt_d_wu | fcvt_d_l | fcvt_d_lu | fcvt_s_d | fcvt_d_s
    | fmadd_h | fmsub_h | fnmsub_h | fnmadd_h | fadd_h | fsub_h | fmul_h | fdiv_h | fsqrt_h | fcvt_w_h | fcvt_wu_h
    | fcvt_l_h | fcvt_lu_h | fcvt_h_w | fcvt_h_wu | fcvt_h_l | fcvt_h_lu | fcvt_s_h | fcvt_h_s | fcvt_d_h | fcvt_h_d =>
    cases h; exact ⟨_, rfl⟩
  | _ => cases h

theorem traps_of_isFloatWithoutMode (h : isFloatWithoutMode i = true) (off : s.csr.mstatus.fs = 0) :
    Traps i s .illegalInstruction (encode i).bits := by
  obtain ⟨k, he⟩ := exec_of_isFloatWithoutMode h s
  obtain ⟨-, hill⟩ | ⟨on, -⟩ := fpGuard_cases (encode i).bits s k
  · exact he.trans hill
  · exact absurd off on

theorem traps_of_rmOf (h : rmOf i = some rm) (hbad : s.csr.mstatus.fs = 0 ∨ s.roundingMode rm = none) :
    Traps i s .illegalInstruction (encode i).bits := by
  obtain ⟨k, he⟩ := exec_of_rmOf h s
  obtain ⟨-, hill⟩ | ⟨mode, on, hm, -⟩ := fpRounded_cases (encode i).bits rm s k
  · exact he.trans hill
  · rw [hm] at hbad; exact hbad.elim (absurd · on) nofun

/-- The codes of the rounding modes (44_fd.md R391). -/
theorem staticMode_eq : ∀ rm : BitVec 3, staticMode rm = [RMode.rne, .rtz, .rdn, .rup, .rmm][rm.toNat]? := by decide

end

/-! ### The obligations -/

/-- Settles O49: each instruction passes both checks and writes its boxed result. -/
theorem floatArithmeticCompletes : Obligations.FloatArithmeticCompletes := by
  unfold Obligations.FloatArithmeticCompletes
  refine ⟨fun s rd rs1 rs2 rs3 rm mode on hm => ?_, fun s rd rs1 rs2 rs3 rm mode on hm => ?_,
    fun s rd rs1 rs2 rs3 rm mode on hm => ?_⟩ <;>
  exact ⟨computesF_of_rounded on hm rfl rfl, computesF_of_rounded on hm rfl rfl, computesF_of_rounded on hm rfl rfl,
    computesF_of_rounded on hm rfl rfl, computesF_of_rounded on hm rfl rfl, computesF_of_rounded on hm rfl rfl,
    computesF_of_rounded on hm rfl rfl, computesF_of_rounded on hm rfl rfl, computesF_of_rounded on hm rfl rfl⟩

/-- Settles O51: each instruction passes both checks and converts the register, read at the width of its type. -/
theorem conversionsToFloatComplete : Obligations.ConversionsToFloatComplete := by
  unfold Obligations.ConversionsToFloatComplete
  intro s rd rs1 rm mode on hm
  have hwu : ((s.rx rs1).setWidth 32).toNat = s.xu rs1 % 2 ^ 32 := by
    have hdvd : 2 ^ 32 ∣ 2 ^ s.cfg.xlen.bits := by cases s.cfg.xlen <;> decide
    rw [BitVec.toNat_setWidth, State.xu, Config.toU_eq, Nat.mod_mod_of_dvd _ hdvd]
  have hw : ((s.rx rs1).setWidth 32).toInt = (s.xu rs1 : Int).bmod (2 ^ 32) := by
    rw [BitVec.toInt_eq_toNat_bmod, hwu, Int.natCast_emod, Int.emod_bmod]
  rw [← hw, ← hwu]
  refine ⟨computesF_of_rounded on hm rfl rfl, computesF_of_rounded on hm rfl rfl, computesF_of_rounded on hm rfl rfl,
    computesF_of_rounded on hm rfl rfl, computesF_of_rounded on hm rfl rfl, computesF_of_rounded on hm rfl rfl, fun hx => ?_,
    computesF_of_rounded on hm rfl rfl, computesF_of_rounded on hm rfl rfl, computesF_of_rounded on hm rfl rfl,
    computesF_of_rounded on hm rfl rfl, computesF_of_rounded on hm rfl rfl, computesF_of_rounded on hm rfl rfl⟩
  have hl : s.xs rs1 = (s.rx rs1).toInt := by rw [State.xs, Config.toS, Config.sx, hx]
  rw [hl, State.xu_rv64 hx]
  exact ⟨computesF_of_rounded on hm rfl rfl, computesF_of_rounded on hm rfl rfl, computesF_of_rounded on hm rfl rfl,
    computesF_of_rounded on hm rfl rfl, computesF_of_rounded on hm rfl rfl, computesF_of_rounded on hm rfl rfl⟩

/-- Settles O58: an instruction without an `rm` field is one check of the unit, one with the field is that check and the one
of its mode, and the quad conversions are illegal. -/
theorem illegalFloatInstructionsTrap : Obligations.IllegalFloatInstructionsTrap := by
  unfold Obligations.IllegalFloatInstructionsTrap
  refine ⟨fun s => ⟨fun i h off => traps_of_isFloatWithoutMode h off, fun i rm h hbad => traps_of_rmOf h hbad,
    fun rm h7 => ?_, staticMode_eq s.frm⟩, fun s rd rs1 rm => ⟨rfl, rfl⟩⟩
  exact (if_neg h7).trans (staticMode_eq rm)

end Sys2Proof.Machine
end

section
/-! The numbers of a format by their magnitude bits (44_fd.md R390): each magnitude names a number, larger ones larger
numbers, and the order of the data is that of their signed magnitudes. -/

namespace Sys2Proof.Machine

open Sys2Proof

namespace Fmt

variable (f : Fmt)

/-! ### The parameters of a format -/

theorem mbits_pos : 1 ≤ f.mbits := by cases f <;> decide

theorem emax_eq : (f.emax : ℤ) = 2 * f.bias + 1 := by cases f <;> decide

theorem two_pow_width_pred : 2 ^ (f.width - 1) = (f.emax + 1) * 2 ^ f.mbits := by cases f <;> decide

theorem width_le : f.width ≤ 64 := by cases f <;> decide

theorem one_lt_emax : 1 < f.emax := by cases f <;> decide

theorem two_pow_width : 2 ^ f.width = 2 ^ (f.width - 1) + 2 ^ (f.width - 1) := by cases f <;> decide

/-- The magnitude of an infinity; those below are finite numbers, those above NaNs. -/
def infMag : ℕ := f.emax * 2 ^ f.mbits

theorem two_pow_mbits_lt_infMag : 2 ^ f.mbits < f.infMag :=
  lt_mul_of_one_lt_left (Nat.two_pow_pos _) f.one_lt_emax

theorem infMag_lt : f.infMag < 2 ^ (f.width - 1) := by
  rw [two_pow_width_pred, infMag]
  exact Nat.mul_lt_mul_of_pos_right (Nat.lt_succ_self _) (Nat.two_pow_pos _)

/-! ### The number of a magnitude -/

/-- The significand of a magnitude. -/
def magSig (n : ℕ) : ℕ := if n < 2 ^ f.mbits then n else n % 2 ^ f.mbits + 2 ^ f.mbits

/-- The exponent of the last place of a magnitude. -/
def magExp (n : ℕ) : ℤ := max (n / 2 ^ f.mbits : ℕ) 1 - f.bias - f.mbits

/-- The number a magnitude stands for, with an exponent that has no upper bound. -/
def magNum (n : ℕ) : ℚ := f.magSig n * 2 ^ f.magExp n

theorem magSig_lt (n : ℕ) : f.magSig n < 2 ^ (f.mbits + 1) := by
  have := Nat.mod_lt n (Nat.two_pow_pos f.mbits)
  rw [magSig, Nat.pow_succ]
  split <;> omega

variable {f}

theorem magNum_of_lt {n : ℕ} (h : n < 2 ^ f.mbits) : f.magNum n = n * 2 ^ (f.emin - f.mbits) := by
  rw [magNum, magSig, if_pos h, magExp, Nat.div_eq_of_lt h]
  rfl

/-- A significand of full precision under an exponent field; one past the greatest carries into the field. -/
theorem magNum_normal {e n : ℕ} (he : 1 ≤ e) (hlo : 2 ^ f.mbits ≤ n) (hhi : n ≤ 2 ^ (f.mbits + 1)) :
    f.magNum (e * 2 ^ f.mbits + (n - 2 ^ f.mbits)) = n * 2 ^ (e - f.bias - f.mbits : ℤ) := by
  have hpos := Nat.two_pow_pos f.mbits
  have hle : 2 ^ f.mbits ≤ e * 2 ^ f.mbits := Nat.le_mul_of_pos_left _ he
  rw [Nat.pow_succ] at hhi
  rw [magNum, magSig, if_neg (by omega), magExp, Nat.mul_comm e, Nat.mul_add_mod, Nat.mul_add_div hpos]
  obtain hlt | heq := Nat.lt_or_eq_of_le (show n - 2 ^ f.mbits ≤ 2 ^ f.mbits by omega)
  · rw [Nat.mod_eq_of_lt hlt, Nat.div_eq_of_lt hlt, Nat.sub_add_cancel hlo, Nat.add_zero,
      max_eq_left (by exact_mod_cast he)]
  · have hn : n = 2 * 2 ^ f.mbits := by omega
    rw [heq, Nat.mod_self, Nat.div_self hpos, max_eq_left (by omega), hn]
    push_cast
    rw [zero_add, show (e : ℤ) + 1 - f.bias - f.mbits = 1 + (e - f.bias - f.mbits) by ring, zpow_one_add₀ two_ne_zero]
    ring

theorem two_pow_mul_zpow (e : ℤ) : (2 ^ f.mbits : ℚ) * 2 ^ (e - f.mbits) = 2 ^ e := by
  rw [← zpow_natCast, ← zpow_add₀ two_ne_zero, add_sub_cancel]

theorem magNum_two_pow_mbits : f.magNum (2 ^ f.mbits) = 2 ^ f.emin := by
  have h := magNum_normal (f := f) le_rfl le_rfl (Nat.pow_le_pow_right two_pos (Nat.le_succ _))
  rw [one_mul, Nat.sub_self, Nat.add_zero] at h
  rw [h, Nat.cast_pow, Nat.cast_ofNat]
  exact two_pow_mul_zpow _

/-- The subnormal numbers, and the smallest normal one, are the multiples of the smallest number. -/
theorem magNum_subnormal {n : ℕ} (h : n ≤ 2 ^ f.mbits) : f.magNum n = n * 2 ^ (f.emin - f.mbits) := by
  obtain h | rfl := Nat.lt_or_eq_of_le h
  · exact magNum_of_lt h
  · rw [magNum_two_pow_mbits, Nat.cast_pow, Nat.cast_ofNat, two_pow_mul_zpow]

theorem magNum_zero : f.magNum 0 = 0 := by rw [magNum_subnormal (Nat.zero_le _)]; simp

theorem magNum_lt_succ (n : ℕ) : f.magNum n < f.magNum (n + 1) := by
  obtain hlt | hge := Nat.lt_or_ge n (2 ^ f.mbits)
  · rw [magNum_subnormal hlt.le, magNum_subnormal hlt]
    gcongr
    exact Nat.lt_succ_self n
  · have hpos := Nat.two_pow_pos f.mbits
    have he : 1 ≤ n / 2 ^ f.mbits := (Nat.one_le_div_iff hpos).2 hge
    have hmod := Nat.mod_lt n hpos
    have hn := Nat.div_add_mod' n (2 ^ f.mbits)
    have hlow := magNum_normal (f := f) (n := n % 2 ^ f.mbits + 2 ^ f.mbits) he (by omega) (by rw [Nat.pow_succ]; omega)
    have hhigh := magNum_normal (f := f) (n := n % 2 ^ f.mbits + 1 + 2 ^ f.mbits) he (by omega)
      (by rw [Nat.pow_succ]; omega)
    rw [Nat.add_sub_cancel, hn] at hlow
    rw [Nat.add_sub_cancel, ← Nat.add_assoc, hn] at hhigh
    rw [hlow, hhigh]
    gcongr
    exact Nat.lt_succ_self _

theorem magNum_strictMono : StrictMono f.magNum := strictMono_nat_of_lt_succ magNum_lt_succ

theorem magNum_pos {n : ℕ} : 0 < f.magNum n ↔ 0 < n := by
  rw [← magNum_zero (f := f), magNum_strictMono.lt_iff_lt]

theorem magNum_nonneg (n : ℕ) : 0 ≤ f.magNum n := by
  rw [← magNum_zero (f := f), magNum_strictMono.le_iff_le]; exact Nat.zero_le n

theorem magNum_eq_zero {n : ℕ} : f.magNum n = 0 ↔ n = 0 := by
  rw [← magNum_zero (f := f), magNum_strictMono.injective.eq_iff]

/-- A number of the format is subnormal or zero exactly when it is below the smallest normal one. -/
theorem magNum_lt_two_pow_emin {n : ℕ} : f.magNum n < 2 ^ f.emin ↔ n < 2 ^ f.mbits := by
  rw [← magNum_two_pow_mbits, magNum_strictMono.lt_iff_lt]

/-- The greatest finite number is the one below the infinities. -/
theorem magNum_infMag_pred : f.magNum (f.infMag - 1) = f.greatest := by
  have hpos := Nat.two_pow_pos f.mbits
  have h := magNum_normal (f := f) (e := f.emax - 1) (n := 2 ^ (f.mbits + 1) - 1) (Nat.le_sub_of_add_le f.one_lt_emax)
    (by rw [Nat.pow_succ]; omega) (Nat.sub_le _ _)
  have hmag : (f.emax - 1) * 2 ^ f.mbits + (2 ^ (f.mbits + 1) - 1 - 2 ^ f.mbits) = f.infMag - 1 := by
    have hle := f.two_pow_mbits_lt_infMag
    rw [infMag] at hle
    rw [infMag, Nat.sub_one_mul, Nat.pow_succ]
    omega
  have hexp : ((f.emax - 1 : ℕ) : ℤ) - f.bias - f.mbits = f.bias - f.mbits := by
    have := f.emax_eq
    have := f.one_lt_emax
    omega
  rw [hmag, hexp, Nat.cast_sub Nat.one_le_two_pow] at h
  rw [h, greatest]
  push_cast
  rfl

/-! ### Bits of a sign and a magnitude -/

section

variable {sign : Bool} {m : ℕ}

theorem toNat_pack (hm : m < 2 ^ (f.width - 1)) : (f.pack sign m).toNat = (if sign then 2 ^ (f.width - 1) else 0) + m := by
  have h64 : 2 ^ f.width ≤ 2 ^ 64 := Nat.pow_le_pow_right two_pos f.width_le
  have hw := f.two_pow_width
  rw [pack, BitVec.toNat_ofNat, Nat.mod_eq_of_lt]
  split <;> omega

theorem toNat_pack_lt (hm : m < 2 ^ (f.width - 1)) : (f.pack sign m).toNat < 2 ^ f.width := by
  have hw := f.two_pow_width
  rw [toNat_pack hm]
  split <;> omega

theorem mag_pack (hm : m < 2 ^ (f.width - 1)) : f.mag (f.pack sign m) = m := by
  rw [mag, toNat_pack hm]
  split
  · rw [Nat.add_mod_left, Nat.mod_eq_of_lt hm]
  · rw [Nat.zero_add, Nat.mod_eq_of_lt hm]

theorem sign_pack (hm : m < 2 ^ (f.width - 1)) : f.sign (f.pack sign m) = sign := by
  rw [Fmt.sign, BitVec.getLsbD, toNat_pack hm]
  cases sign
  · rw [if_neg (by simp), Nat.zero_add]; exact Nat.testBit_lt_two_pow hm
  · rw [if_pos rfl, Nat.testBit_two_pow_add_eq, Nat.testBit_lt_two_pow hm]; rfl

theorem getLsbD_zero_pack (hm : m < 2 ^ (f.width - 1)) (heven : m % 2 = 0) (hw : 2 ≤ f.width) :
    (f.pack sign m).getLsbD 0 = false := by
  have hpow : 2 ^ (f.width - 1) % 2 = 0 := by
    rw [show f.width - 1 = f.width - 2 + 1 by omega, Nat.pow_succ]; omega
  rw [BitVec.getLsbD, toNat_pack hm, Nat.testBit_zero, decide_eq_false_iff_not]
  split <;> omega

end

theorem mag_lt (a : Word) : f.mag a < 2 ^ (f.width - 1) := Nat.mod_lt _ (Nat.two_pow_pos _)

/-! ### The datum of a magnitude -/

theorem frac_eq (a : Word) : f.frac a = f.mag a % 2 ^ f.mbits :=
  (Nat.mod_mod_of_dvd _ (f.two_pow_width_pred ▸ Nat.dvd_mul_left _ _)).symm

theorem val_of_mag_lt {a : Word} (h : f.mag a < f.infMag) :
    f.val a = .fin (f.sign a) (f.magSig (f.mag a)) (f.magExp (f.mag a)) := by
  have hpos := Nat.two_pow_pos f.mbits
  have hexpo : f.expo a < f.emax := (Nat.div_lt_iff_lt_mul hpos).2 h
  rw [val, if_neg hexpo.ne, frac_eq, magSig, magExp, ← expo]
  split
  case isTrue h0 =>
    have hlt : f.mag a < 2 ^ f.mbits := (Nat.div_eq_zero_iff_lt hpos).1 h0
    rw [if_pos hlt, h0, Nat.mod_eq_of_lt hlt]
    rfl
  case isFalse h0 =>
    have hge : ¬ f.mag a < 2 ^ f.mbits := fun hlt => h0 (Nat.div_eq_of_lt hlt)
    rw [if_neg hge, max_eq_left (by omega)]

theorem expo_of_infMag_le {a : Word} (h : f.infMag ≤ f.mag a) : f.expo a = f.emax := by
  have hpos := Nat.two_pow_pos f.mbits
  refine Nat.le_antisymm (Nat.lt_succ_iff.1 ?_) ((Nat.le_div_iff_mul_le hpos).2 h)
  rw [expo, Nat.div_lt_iff_lt_mul hpos]
  exact f.mag_lt a |>.trans_eq f.two_pow_width_pred

theorem val_of_mag_eq {a : Word} (h : f.mag a = f.infMag) : f.val a = .inf (f.sign a) := by
  rw [val, if_pos (expo_of_infMag_le h.ge), frac_eq, h, infMag, Nat.mul_mod_left, if_pos rfl]

theorem val_of_lt_mag {a : Word} (h : f.infMag < f.mag a) : ∃ sig, f.val a = .nan sig := by
  have hexpo := expo_of_infMag_le h.le
  have hdiv := Nat.div_add_mod' (f.mag a) (2 ^ f.mbits)
  rw [show f.mag a / 2 ^ f.mbits = f.emax from hexpo, ← infMag, ← frac_eq] at hdiv
  exact ⟨_, by rw [val, if_pos hexpo, if_neg (by omega)]⟩

/-- A datum is a number, an infinity or a NaN, as its magnitude says. -/
theorem val_cases (f : Fmt) (a : Word) :
    f.mag a < f.infMag ∧ f.val a = .fin (f.sign a) (f.magSig (f.mag a)) (f.magExp (f.mag a)) ∨
      f.mag a = f.infMag ∧ f.val a = .inf (f.sign a) ∨ f.infMag < f.mag a ∧ ∃ sig, f.val a = .nan sig := by
  obtain h | h | h := Nat.lt_trichotomy (f.mag a) f.infMag
  · exact .inl ⟨h, val_of_mag_lt h⟩
  · exact .inr (.inl ⟨h, val_of_mag_eq h⟩)
  · exact .inr (.inr ⟨h, val_of_lt_mag h⟩)

/-- The number of a sign and a magnitude. -/
def signedNum (f : Fmt) (sign : Bool) (m : ℕ) : ℚ := (if sign then -1 else 1) * f.magNum m

theorem num_of_mag_lt {a : Word} (h : f.mag a < f.infMag) : f.num a = some (f.signedNum (f.sign a) (f.mag a)) := by
  rw [num, val_of_mag_lt h, FVal.num, signedNum, magNum, mul_assoc]

theorem num_pack {sign : Bool} {m : ℕ} (h : m < f.infMag) : f.num (f.pack sign m) = some (f.signedNum sign m) := by
  have hm := h.trans f.infMag_lt
  have hnum := num_of_mag_lt (a := f.pack sign m) (by rwa [mag_pack hm])
  rwa [mag_pack hm, sign_pack hm] at hnum

theorem eq_signedNum_of_num {a : Word} {x : ℚ} (h : f.num a = some x) :
    f.mag a < f.infMag ∧ x = f.signedNum (f.sign a) (f.mag a) := by
  obtain ⟨hlt, -⟩ | ⟨-, hval⟩ | ⟨-, sig, hval⟩ := f.val_cases a
  · rw [num_of_mag_lt hlt] at h; exact ⟨hlt, (Option.some.inj h).symm⟩
  · rw [num, hval] at h; cases h
  · rw [num, hval] at h; cases h

end Fmt

end Sys2Proof.Machine
end

section
/-! Sign injection, minimum and maximum, comparisons and classification (44_fd.md R398, R400, R401, R403): the order of the
data is that of their signed magnitudes. -/

namespace Sys2Proof.Machine

open Sys2Proof

/-! ### The order of the data -/

namespace Fmt

variable {f : Fmt} {a b : Word} {x y : WithBot (WithTop ℚ)}

/-- The number of a signed magnitude. -/
def intNum (f : Fmt) (k : ℤ) : ℚ := k.sign * f.magNum k.natAbs

theorem intNum_signed (sign : Bool) (m : ℕ) : f.intNum (FVal.signed sign m) = f.signedNum sign m := by
  obtain rfl | hm := Nat.eq_zero_or_pos m
  · cases sign <;> simp [intNum, signedNum, FVal.signed, magNum_zero]
  · cases sign <;> simp [intNum, signedNum, FVal.signed, Int.sign_natCast_of_ne_zero hm.ne']

theorem intNum_strictMono : StrictMono f.intNum := by
  refine strictMono_of_odd_strictMonoOn_nonneg (fun k => by simp [intNum]) fun j hj k hk hjk => ?_
  lift j to ℕ using hj
  lift k to ℕ using hk
  have hlt := magNum_strictMono (f := f) (Int.ofNat_lt.1 hjk)
  exact intNum_signed (f := f) false j ▸ intNum_signed (f := f) false k ▸ by simpa [signedNum] using hlt

/-- The place of a signed magnitude among the extended reals. -/
def place (f : Fmt) (k : ℤ) : WithBot (WithTop ℚ) :=
  if k ≤ -f.infMag then ⊥ else if f.infMag ≤ k then ((⊤ : WithTop ℚ) : WithBot (WithTop ℚ))
  else ((f.intNum k : WithTop ℚ) : WithBot (WithTop ℚ))

theorem place_strictMonoOn : StrictMonoOn f.place (Set.Icc (-f.infMag) f.infMag) := by
  rintro j ⟨hj, -⟩ k ⟨-, hk⟩ hjk
  rw [place, place, if_neg (show ¬ k ≤ -f.infMag by omega), if_neg (show ¬ (f.infMag : ℤ) ≤ j by omega)]
  split <;> split
  · exact WithBot.bot_lt_coe _
  · exact WithBot.bot_lt_coe _
  · exact WithBot.coe_lt_coe.2 (WithTop.coe_lt_top _)
  · exact WithBot.coe_lt_coe.2 (WithTop.coe_lt_coe.2 (intNum_strictMono hjk))

theorem orderKey_mem (h : f.mag a ≤ f.infMag) : orderKey f a ∈ Set.Icc (-f.infMag : ℤ) f.infMag := by
  rw [orderKey, FVal.signed, Set.mem_Icc]
  split <;> omega

/-- A datum that is no NaN is at the place of its signed magnitude. -/
theorem place_of_order (h : f.order a = some x) :
    orderKey f a ∈ Set.Icc (-f.infMag : ℤ) f.infMag ∧ f.place (orderKey f a) = x := by
  have hpos : 0 < f.infMag := (Nat.two_pow_pos _).trans f.two_pow_mbits_lt_infMag
  rw [order] at h
  obtain ⟨hmag, hval⟩ | ⟨hmag, hval⟩ | ⟨-, sig, hval⟩ := f.val_cases a
  · refine ⟨orderKey_mem hmag.le, ?_⟩
    have hkey : f.intNum (orderKey f a) = f.signedNum (f.sign a) (f.mag a) := intNum_signed _ _
    rw [hval] at h
    cases h
    rw [place, if_neg, if_neg, hkey, signedNum, magNum, mul_assoc]
    all_goals rw [orderKey, FVal.signed]; split <;> omega
  · refine ⟨orderKey_mem hmag.le, ?_⟩
    rw [hval] at h
    rw [orderKey, hmag]
    cases hs : f.sign a <;> rw [hs] at h <;> cases h
    · rw [show FVal.signed false f.infMag = f.infMag from rfl, place, if_neg (by omega), if_pos le_rfl]
    · rw [show FVal.signed true f.infMag = -f.infMag from rfl, place, if_pos le_rfl]
  · rw [hval] at h; cases h

theorem order_lt_iff (ha : f.order a = some x) (hb : f.order b = some y) : x < y ↔ orderKey f a < orderKey f b := by
  obtain ⟨hka, rfl⟩ := place_of_order ha
  obtain ⟨hkb, rfl⟩ := place_of_order hb
  exact place_strictMonoOn.lt_iff_lt hka hkb

theorem order_le_iff (ha : f.order a = some x) (hb : f.order b = some y) : x ≤ y ↔ orderKey f a ≤ orderKey f b := by
  rw [← not_lt, order_lt_iff hb ha, not_lt]

theorem order_eq_iff (ha : f.order a = some x) (hb : f.order b = some y) : x = y ↔ orderKey f a = orderKey f b := by
  rw [le_antisymm_iff, order_le_iff ha hb, order_le_iff hb ha, ← le_antisymm_iff]

theorem isNone_order (f : Fmt) (a : Word) : (f.order a).isNone = (f.val a).isNan := by
  rw [order]
  cases f.val a with
  | nan | fin => rfl
  | inf sign => cases sign <;> rfl

theorem isNan_of_order (ha : f.order a = some x) : (f.val a).isNan = false := by rw [← isNone_order, ha]; rfl

theorem isNan_of_num {q : ℚ} (h : f.num a = some q) : (f.val a).isNan = false := by
  obtain ⟨hlt, -⟩ := eq_signedNum_of_num h
  rw [val_of_mag_lt hlt]
  rfl

theorem orderKey_of_num_zero (h : f.num a = some 0) : orderKey f a = 0 := by
  obtain ⟨-, h0⟩ := eq_signedNum_of_num h
  refine (intNum_strictMono (f := f)).injective ?_
  rw [orderKey, intNum_signed, ← h0]
  simp [intNum]

end Fmt

section

variable {f : Fmt} {a b v : Word} {x y : WithBot (WithTop ℚ)}

/-! ### Minimum, maximum and sign injection -/

theorem fpPick_of_num (ha : (f.val a).isNan = false) (hb : (f.val b).isNan = false) : (fpPick f a b v).1 = v := by
  simp [fpPick, ha, hb]

theorem fpPick_of_isNan (ha : (f.val a).isNan = true) :
    (fpPick f a b v).1 = if (f.val b).isNan then f.nan else b := by
  simp [fpPick, ha]

theorem fpPick_of_isNan_right (ha : (f.val a).isNan = false) (hb : (f.val b).isNan = true) :
    (fpPick f a b v).1 = a := by
  simp [fpPick, ha, hb]

theorem fpBefore_of_lt (h : orderKey f a < orderKey f b) : fpBefore f a b = true := by simp [fpBefore, h]

theorem fpBefore_of_gt (h : orderKey f b < orderKey f a) : fpBefore f a b = false := by
  simp [fpBefore, h.le, h.ne']

theorem fpBefore_of_eq (h : orderKey f a = orderKey f b) : fpBefore f a b = f.sign a := by simp [fpBefore, h]

/-- The order of minimum and maximum: that of the extended reals. -/
theorem fpMin_fpMax_of_order (ha : f.order a = some x) (hb : f.order b = some y) :
    ((fpMin f a b).1 = a ∨ (fpMin f a b).1 = b) ∧ ((fpMax f a b).1 = a ∨ (fpMax f a b).1 = b) ∧
      (x < y → (fpMin f a b).1 = a ∧ (fpMax f a b).1 = b) ∧ (y < x → (fpMin f a b).1 = b ∧ (fpMax f a b).1 = a) := by
  rw [fpMin, fpMax, fpPick_of_num (Fmt.isNan_of_order ha) (Fmt.isNan_of_order hb),
    fpPick_of_num (Fmt.isNan_of_order ha) (Fmt.isNan_of_order hb), Fmt.order_lt_iff ha hb, Fmt.order_lt_iff hb ha]
  refine ⟨ite_eq_or_eq _ _ _, (ite_eq_or_eq _ _ _).symm, fun h => ?_, fun h => ?_⟩
  · simp [fpBefore_of_lt h]
  · simp [fpBefore_of_gt h]

/-- Both zeros are at one place, and `-0` comes before `+0` (44_fd.md R398). -/
theorem fpMin_fpMax_of_zeros (ha : f.num a = some 0) (hb : f.num b = some 0) (hsa : f.sign a = true)
    (hsb : f.sign b = false) :
    (fpMin f a b).1 = a ∧ (fpMax f a b).1 = b ∧ (fpMin f b a).1 = a ∧ (fpMax f b a).1 = b := by
  have hna := Fmt.isNan_of_num ha
  have hnb := Fmt.isNan_of_num hb
  have hkey : orderKey f a = orderKey f b := by rw [Fmt.orderKey_of_num_zero ha, Fmt.orderKey_of_num_zero hb]
  have hab : fpBefore f a b = true := (fpBefore_of_eq hkey).trans hsa
  have hba : fpBefore f b a = false := (fpBefore_of_eq hkey.symm).trans hsb
  simp [fpMin, fpMax, fpPick_of_num hna hnb, fpPick_of_num hnb hna, hab, hba]

theorem mag_fpWithSign (sign : Bool) : f.mag (fpWithSign f a sign) = f.mag a := Fmt.mag_pack (Fmt.mag_lt a)

theorem sign_fpWithSign (sign : Bool) : f.sign (fpWithSign f a sign) = sign := Fmt.sign_pack (Fmt.mag_lt a)

/-! ### Comparisons -/

theorem anyNan_eq_isNone (f : Fmt) (a b : Word) : anyNan f a b = ((f.order a).isNone || (f.order b).isNone) := by
  rw [Fmt.isNone_order, Fmt.isNone_order, anyNan]

theorem anySignaling_of_not_anyNan (h : anyNan f a b = false) : anySignaling f a b = false := by
  by_contra hs
  rw [anyNan_of_anySignaling (by simpa using hs)] at h
  cases h

theorem compareFlags_of_anyNan (c : Config) (h : anyNan f a b = true) :
    compareFlags c f a b = if c.fltFleSignaling || anySignaling f a b then flagNV else 0 := by
  rw [compareFlags, h]
  cases c.fltFleSignaling <;> rfl

theorem compareFlags_of_not_anyNan (c : Config) (h : anyNan f a b = false) : compareFlags c f a b = 0 := by
  rw [compareFlags, h, anySignaling_of_not_anyNan h, ite_self]
  rfl

/-- Comparisons of data that are no NaN follow the extended reals (44_fd.md R400). -/
theorem compare_of_order (c : Config) (ha : f.order a = some x) (hb : f.order b = some y) :
    fpEq f a b = (if x = y then 1 else 0, 0) ∧ fpLt c f a b = (if x < y then 1 else 0, 0) ∧
      fpLe c f a b = (if x ≤ y then 1 else 0, 0) := by
  have hnan : anyNan f a b = false := by rw [anyNan_eq_isNone, ha, hb]; rfl
  rw [fpEq, fpLt, fpLe, compareFlags_of_not_anyNan c hnan, anySignaling_of_not_anyNan hnan, hnan]
  simp [Fmt.order_eq_iff ha hb, Fmt.order_lt_iff ha hb, Fmt.order_le_iff ha hb, flagIf]

/-! ### Classification -/

/-- The number of a finite datum: where it lies, by the sign and the magnitude. -/
theorem Fmt.signedNum_cases (f : Fmt) (sign : Bool) (m : ℕ) :
    (f.signedNum sign m = 0 ↔ m = 0) ∧ (f.signedNum sign m < 0 ↔ m ≠ 0 ∧ sign = true) ∧
      (0 < f.signedNum sign m ↔ m ≠ 0 ∧ sign = false) ∧ (|f.signedNum sign m| < 2 ^ f.emin ↔ m < 2 ^ f.mbits) := by
  have hnonneg := Fmt.magNum_nonneg (f := f) m
  have hpos := Fmt.magNum_pos (f := f) (n := m)
  rw [← Fmt.magNum_lt_two_pow_emin, ← Fmt.magNum_eq_zero (f := f) (n := m), ← Nat.pos_iff_ne_zero, ← hpos]
  cases sign
  · simp [Fmt.signedNum, abs_of_nonneg hnonneg, hnonneg]
  · simp [Fmt.signedNum, abs_of_nonneg hnonneg, hnonneg]

/-- The bit of a number. -/
theorem fpClassBit_of_mag_lt (h : f.mag a < f.infMag) :
    fpClassBit f a =
      if f.mag a = 0 then if f.sign a then 3 else 4
      else if f.mag a < 2 ^ f.mbits then if f.sign a then 2 else 5 else if f.sign a then 1 else 6 := by
  have hpos := Nat.two_pow_pos f.mbits
  have hsig : f.magSig (f.mag a) = 0 ↔ f.mag a = 0 := by
    rw [Fmt.magSig]
    split <;> omega
  have hexpo : f.expo a = 0 ↔ f.mag a < 2 ^ f.mbits := Nat.div_eq_zero_iff_lt hpos
  rw [fpClassBit, Fmt.val_of_mag_lt h]
  simp only [hsig, hexpo]

/-- The Classify Table (44_fd.md R401), row by row. -/
theorem fpClassBit_spec (f : Fmt) (a : Word) :
    fpClassBit f a < 10 ∧ (fpClassBit f a = 9 ∨ fpClassBit f a = 8 ↔ (f.val a).isNan = true) ∧
      (fpClassBit f a = 8 ↔ (f.val a).isSignaling = true) ∧
      (fpClassBit f a = 0 ↔ f.val a = .inf true) ∧ (fpClassBit f a = 7 ↔ f.val a = .inf false) ∧
      (fpClassBit f a = 3 ∨ fpClassBit f a = 4 ↔ f.num a = some 0) ∧
      (fpClassBit f a = 3 ↔ f.num a = some 0 ∧ f.sign a = true) ∧
      (fpClassBit f a = 1 ∨ fpClassBit f a = 2 ↔ ∃ x, f.num a = some x ∧ x < 0) ∧
      (fpClassBit f a = 5 ∨ fpClassBit f a = 6 ↔ ∃ x, f.num a = some x ∧ 0 < x) ∧
      (fpClassBit f a = 2 ∨ fpClassBit f a = 5 ↔ ∃ x, f.num a = some x ∧ x ≠ 0 ∧ |x| < 2 ^ f.emin) := by
  obtain ⟨hmag, hval⟩ | ⟨-, hval⟩ | ⟨-, sig, hval⟩ := f.val_cases a
  · obtain ⟨hzero, hneg, hpos, hsub⟩ := f.signedNum_cases (f.sign a) (f.mag a)
    rw [fpClassBit_of_mag_lt hmag]
    simp only [Fmt.num_of_mag_lt hmag, Option.some.injEq, exists_eq_left', hzero, hneg, hpos, hsub, hval, ne_eq,
      FVal.isNan, FVal.isSignaling]
    by_cases h0 : f.mag a = 0
    · cases f.sign a <;> simp [h0]
    · by_cases hlt : f.mag a < 2 ^ f.mbits
      · cases f.sign a <;> simp [h0, hlt]
      · cases f.sign a <;> simp [h0, hlt]
  · have hnum : f.num a = none := by rw [Fmt.num, hval]; rfl
    rw [fpClassBit, hval, hnum]
    cases f.sign a <;> simp [FVal.isNan, FVal.isSignaling]
  · have hnum : f.num a = none := by rw [Fmt.num, hval]; rfl
    rw [fpClassBit, hval, hnum]
    cases sig <;> simp [FVal.isNan, FVal.isSignaling]

/-! ### Moves -/

/-- Only the bits of the format go into the box. -/
theorem box_low (f : Fmt) (w : Word) : box f (w &&& ~~~(BitVec.allOnes 64 <<< f.width)) = box f w := by
  refine BitVec.eq_of_getLsbD_eq fun k hk => ?_
  rw [box_getLsbD f _ k hk, box_getLsbD f _ k hk, unbox_getLsbD f w k hk]
  by_cases h : k < f.width
  · simp [h]
  · simp [h, Nat.le_of_not_lt h]

theorem sext16_eq (w : Word) : sext16 w = BitVec.ofInt 64 ((w.toNat : ℤ).bmod (2 ^ 16)) := by
  rw [sext16, BitVec.signExtend, BitVec.toInt_eq_toNat_bmod, BitVec.toNat_setWidth, Int.natCast_emod, Int.emod_bmod]

variable {s : State} {i : Instr} {rd : Reg} {bits : Word}

/-- A move to a floating-point register raises no flag. -/
theorem computesF_of_move (on : s.csr.mstatus.fs ≠ 0) {w : Word} (he : exec i s = fpGuard bits s (retire 4 (s.wf rd w)))
    (hw : w = box f v) : ComputesF i s f rd (v, 0) :=
  computesF_of_guard on (hw ▸ he)

/-- A move to an integer register raises no flag. -/
theorem computesFX_of_move (on : s.csr.mstatus.fs ≠ 0) {w : Word} (he : exec i s = fpGuard bits s (put 4 rd w s))
    (hw : w = v) : ComputesFX i s rd (v, 0) :=
  computesFX_of_guard on (hw ▸ he)

end

/-! ### The obligations -/

/-- Settles O52: each instruction passes the check of the unit; minimum and maximum are by the order of the data, and sign
injection packs the magnitude under another sign. -/
theorem signInjectionMinMaxAndMovesComplete : Obligations.SignInjectionMinMaxAndMovesComplete := by
  unfold Obligations.SignInjectionMinMaxAndMovesComplete
  refine ⟨fun s rd rs1 rs2 on => ?_, fun f a b => ⟨rfl, rfl, fun ha hb => ?_, fun ha hb => ?_, fun ha hb => ?_,
    fpMin_fpMax_of_zeros, fun x y => fpMin_fpMax_of_order⟩, fun f a b => ⟨?_, sign_fpWithSign _, sign_fpWithSign _,
    sign_fpWithSign _⟩⟩
  · refine ⟨?_, ?_, ?_, ?_, ?_, ?_, ?_, ?_, ?_, ?_, ?_, ?_, ?_, ?_, ?_, computesF_of_move on rfl ?w,
      computesF_of_move on rfl ?h, computesF_of_move on rfl BitVec.or_zero.symm⟩
    case w => exact (box_low .s (s.rx rs1)).symm
    case h => exact (box_low .h (s.rx rs1)).symm
    all_goals exact computesF_of_guard on rfl
  · rw [fpMin, fpMax, fpPick_of_isNan ha, fpPick_of_isNan ha, if_pos hb]
    exact ⟨rfl, rfl⟩
  · rw [fpMin, fpMax, fpPick_of_isNan ha, fpPick_of_isNan ha, if_neg (by simp [hb])]
    exact ⟨rfl, rfl⟩
  · exact ⟨fpPick_of_isNan_right ha hb, fpPick_of_isNan_right ha hb⟩
  · intro v hv
    simp only [List.mem_cons, List.not_mem_nil, or_false] at hv
    obtain rfl | rfl | rfl := hv
    · exact mag_fpWithSign _
    · exact mag_fpWithSign _
    · exact mag_fpWithSign _

/-- Settles O53: each instruction passes the check of the unit; comparisons are by the order of the data, and
classification by sign and magnitude. -/
theorem comparisonsAndMovesToIntegersComplete : Obligations.ComparisonsAndMovesToIntegersComplete := by
  unfold Obligations.ComparisonsAndMovesToIntegersComplete
  refine ⟨fun s rd rs1 rs2 on => ?_, fun c f a b => ⟨anyNan_eq_isNone f a b, fun h => ?_, fun x y => compare_of_order c⟩,
    fun f a => ?_⟩
  · refine ⟨?_, ?_, ?_, ?_, ?_, ?_, ?_, ?_, ?_, ?_, ?_, ?_, computesFX_of_move on rfl (sext32_eq _),
      computesFX_of_move on rfl (sext16_eq _), computesFX_of_move on rfl rfl⟩ <;>
    exact computesFX_of_guard on rfl
  · simp [fpEq, fpLt, fpLe, h, compareFlags_of_anyNan c h, flagIf]
  · obtain ⟨hlt, hspec⟩ := fpClassBit_spec f a
    exact ⟨_, hlt, rfl, hspec⟩

end Sys2Proof.Machine
end

section
/-! Rounding to an integer (44_fd.md R391, R399): what the truncated quotient and the remainder say of the number rounded,
also of one they do not hold exactly (`Sticky`). -/

namespace Sys2Proof.Machine

open Sys2Proof

/-! ### Rounded reals -/

/-- `i` is the real number `x` rounded to an integer in a mode: `NearestInt`, of the reals. -/
def NearestIntR (mode : RMode) (x : ℝ) (i : ℤ) : Prop :=
  match mode with
  | .rne => |(i : ℝ) - x| ≤ 1 / 2 ∧ (|(i : ℝ) - x| = 1 / 2 → i % 2 = 0)
  | .rmm => |(i : ℝ) - x| ≤ 1 / 2 ∧ (|(i : ℝ) - x| = 1 / 2 → |x| < |(i : ℝ)|)
  | .rtz => |(i : ℝ)| ≤ |x| ∧ |x| < |(i : ℝ)| + 1 ∧ 0 ≤ i * x
  | .rdn => (i : ℝ) ≤ x ∧ x < i + 1
  | .rup => x ≤ i ∧ (i : ℝ) - 1 < x

theorem nearestIntR_cast {mode : RMode} {x : ℚ} {i : ℤ} : NearestIntR mode (x : ℝ) i ↔ NearestInt mode x i := by
  cases mode <;> simp only [NearestIntR, NearestInt]
  case rne | rmm =>
    rw [show |(i : ℝ) - x| = ((|i - x| : ℚ) : ℝ) by push_cast; rfl,
      show (1 / 2 : ℝ) = ((1 / 2 : ℚ) : ℝ) by push_cast; rfl]
    norm_cast
  all_goals norm_cast

/-- The mode that rounds the negative as this one rounds the number. -/
def RMode.mirror : RMode → RMode
  | .rdn => .rup
  | .rup => .rdn
  | mode => mode

theorem NearestIntR.neg {mode : RMode} {x : ℝ} {i : ℤ} (h : NearestIntR mode.mirror x i) : NearestIntR mode (-x) (-i) := by
  have hdist : |((-i : ℤ) : ℝ) - -x| = |(i : ℝ) - x| := by rw [← abs_neg]; congr 1; push_cast; ring
  cases mode <;> simp only [NearestIntR, RMode.mirror, hdist] at h ⊢
  case rne => exact ⟨h.1, fun heq => by have := h.2 heq; omega⟩
  case rmm => simpa using h
  case rtz => simpa using h
  case rdn => push_cast; constructor <;> linarith [h.1, h.2]
  case rup => push_cast; constructor <;> linarith [h.1, h.2]

/-- An integer is its own rounding. -/
theorem NearestIntR.self (mode : RMode) (i : ℤ) : NearestIntR mode i i := by
  cases mode <;> simp [NearestIntR, mul_self_nonneg]

/-- Rounding does not pass an integer. -/
theorem NearestIntR.le_of_le {mode : RMode} {x : ℝ} {i j : ℤ} (h : NearestIntR mode x i) (hj : (j : ℝ) ≤ x) : j ≤ i := by
  rw [← Int.lt_add_one_iff, ← Int.cast_lt (R := ℝ)]
  push_cast
  cases mode <;> simp only [NearestIntR, abs_le] at h
  case rne | rmm => linarith [h.1.1]
  case rdn | rup => linarith [h.1, h.2]
  case rtz =>
    obtain ⟨hle, hlt, hsign⟩ := h
    obtain hx | rfl | hx := lt_trichotomy x 0
    · rw [abs_of_neg hx] at hle
      linarith [neg_abs_le (i : ℝ)]
    · rw [abs_zero] at hle
      linarith [neg_abs_le (i : ℝ)]
    · rw [abs_of_nonneg (nonneg_of_mul_nonneg_left hsign hx), abs_of_pos hx] at hlt
      linarith

theorem NearestIntR.ge_of_ge {mode : RMode} {x : ℝ} {i j : ℤ} (h : NearestIntR mode x i) (hj : x ≤ j) : i ≤ j := by
  have hneg : NearestIntR mode.mirror (-x) (-i) := NearestIntR.neg (by cases mode <;> exact h)
  have := hneg.le_of_le (j := -j) (by push_cast; linarith)
  omega

/-! ### The place of a number among the integers -/

/-- A real number lies to `d`, `d + 1/2` and `d + 1` as `d + r / k` does, for a remainder `r` below `k`. -/
structure Sits (x : ℝ) (d r k : ℕ) : Prop where
  eq_iff : r = 0 ↔ x = d
  le : (d : ℝ) ≤ x
  lt_succ : x < d + 1
  lt_half : 2 * r < k → x < d + 1 / 2
  eq_half : 2 * r = k → x = d + 1 / 2
  gt_half : k < 2 * r → d + 1 / 2 < x

/-- The real number `x` is `m * 2^e`; or `m` is odd, both lie strictly between the same multiples of `2^(e+1)`, and place
`q` is above those: a significand cut off below `q`, with one more bit that says it was not exact. -/
def Sticky (m : ℕ) (e q : ℤ) (x : ℝ) : Prop :=
  x = m * 2 ^ e ∨ m % 2 = 1 ∧ (m - 1 : ℝ) * 2 ^ e < x ∧ x < (m + 1) * 2 ^ e ∧ e + 2 ≤ q

theorem Sticky.mono {m : ℕ} {e q q' : ℤ} {x : ℝ} (h : Sticky m e q x) (hq : q ≤ q') : Sticky m e q' x :=
  h.imp_right fun ⟨hodd, hlo, hhi, h2⟩ => ⟨hodd, hlo, hhi, h2.trans hq⟩

section

variable {m k : ℕ} {x : ℝ}

/-- The place in multiples of `1 / k`. -/
theorem Sits.of_add_div {d r : ℕ} {y : ℝ} (hk : 0 < k) (hx : x = d + y / k) (heq : r = 0 ↔ y = 0) (hnonneg : 0 ≤ y)
    (hlt : y < k) (hlow : 2 * r < k → 2 * y < k) (hhalf : 2 * r = k → 2 * y = k) (hhigh : k < 2 * r → k < 2 * y) :
    Sits x d r k := by
  have hk' : (0 : ℝ) < k := Nat.cast_pos.2 hk
  subst hx
  refine ⟨?_, by linarith [div_nonneg hnonneg hk'.le], by linarith [(div_lt_one hk').2 hlt], fun h => ?_, fun h => ?_,
    fun h => ?_⟩
  · rw [heq, add_eq_left, div_eq_zero_iff, or_iff_left hk'.ne']
  · have := (div_lt_iff₀ hk').2 (show y < 1 / 2 * k by linarith [hlow h])
    linarith
  · have := (div_eq_iff hk'.ne').2 (show y = 1 / 2 * k by linarith [hhalf h])
    linarith
  · have := (lt_div_iff₀ hk').2 (show 1 / 2 * k < y by linarith [hhigh h])
    linarith

theorem sits_of_exact (hk : 0 < k) (hx : x = (m : ℝ) / k) : Sits x (m / k) (m % k) k := by
  have hk' : (0 : ℝ) < k := Nat.cast_pos.2 hk
  have hm : (m : ℝ) = k * (m / k : ℕ) + (m % k : ℕ) := by exact_mod_cast (Nat.div_add_mod m k).symm
  refine Sits.of_add_div (y := (m % k : ℕ)) hk ?_ Nat.cast_eq_zero.symm (Nat.cast_nonneg _)
    (Nat.cast_lt.2 (Nat.mod_lt m hk)) (fun h => ?_) (fun h => ?_) (fun h => ?_)
  · rw [hx, hm]
    field_simp
  all_goals exact_mod_cast h

/-- The remainder of an odd number by a multiple of 4 is not at a half, so a unit more or less does not change its side. -/
theorem sits_of_odd (hk : 0 < k) (h4 : 4 ∣ k) (hodd : m % 2 = 1) (hlo : (m - 1 : ℝ) / k < x) (hhi : x < (m + 1) / k) :
    Sits x (m / k) (m % k) k := by
  have hk' : (0 : ℝ) < k := Nat.cast_pos.2 hk
  have hm : (m : ℝ) = k * (m / k : ℕ) + (m % k : ℕ) := by exact_mod_cast (Nat.div_add_mod m k).symm
  have hr := Nat.mod_lt m hk
  have hrodd : m % k % 2 = 1 := by rw [Nat.mod_mod_of_dvd m (dvd_trans (by decide) h4), hodd]
  obtain ⟨j, rfl⟩ := h4
  set d := m / (4 * j)
  set r := m % (4 * j)
  rw [div_lt_iff₀ hk'] at hlo
  rw [lt_div_iff₀ hk'] at hhi
  have hlo' : (r : ℝ) - 1 < (x - d) * (4 * j : ℕ) := by linarith
  have hhi' : (x - d) * (4 * j : ℕ) < (r : ℝ) + 1 := by linarith
  have hr1 : (1 : ℝ) ≤ r := by exact_mod_cast (show 1 ≤ r by omega)
  refine Sits.of_add_div (y := (x - d) * (4 * j : ℕ)) hk (by field_simp; ring) ?_ (by linarith) ?_ (fun h => ?_)
    (fun h => by omega) (fun h => ?_)
  · exact ⟨fun h => by omega, fun h => by linarith⟩
  · have : (r : ℝ) + 1 ≤ (4 * j : ℕ) := by exact_mod_cast (show r + 1 ≤ 4 * j by omega)
    linarith
  · have : 2 * ((r : ℝ) + 1) ≤ (4 * j : ℕ) := by exact_mod_cast (show 2 * (r + 1) ≤ 4 * j by omega)
    linarith
  · have : ((4 * j : ℕ) : ℝ) + 2 ≤ 2 * r := by exact_mod_cast (show 4 * j + 2 ≤ 2 * r by omega)
    linarith

end

/-! ### The rounding of the model -/

section

variable {mode : RMode} {m n : ℕ} {x : ℝ}

theorem roundsUp_mirror (mode : RMode) (sign : Bool) (q r n : ℕ) :
    roundsUp mode.mirror (!sign) q r n = roundsUp mode sign q r n := by
  cases mode <;> simp [RMode.mirror, roundsUp]

theorem roundShift_mirror (mode : RMode) (sign : Bool) (m n : ℕ) :
    roundShift mode.mirror (!sign) m n = roundShift mode sign m n := by
  rw [roundShift, roundShift, roundsUp_mirror]

theorem Sits.near_low {d r k : ℕ} (h : Sits x d r k) (hr : 2 * r ≤ k) :
    |(d : ℝ) - x| ≤ 1 / 2 ∧ (|(d : ℝ) - x| = 1 / 2 → 2 * r = k) := by
  rw [abs_of_nonpos (by linarith [h.le])]
  obtain hlt | heq := Nat.lt_or_eq_of_le hr
  · have := h.lt_half hlt
    exact ⟨by linarith, fun _ => by linarith⟩
  · have := h.eq_half heq
    exact ⟨by linarith, fun _ => heq⟩

theorem Sits.near_high {d r k : ℕ} (h : Sits x d r k) (hr : k ≤ 2 * r) :
    |(d : ℝ) + 1 - x| ≤ 1 / 2 ∧ (|(d : ℝ) + 1 - x| = 1 / 2 → 2 * r = k) := by
  rw [abs_of_nonneg (by linarith [h.lt_succ])]
  obtain hlt | heq := Nat.lt_or_eq_of_le hr
  · have := h.gt_half hlt
    exact ⟨by linarith, fun _ => by linarith⟩
  · have := h.eq_half heq.symm
    exact ⟨by linarith, fun _ => heq.symm⟩

/-- A number that is not negative, rounded: down, or up when the remainder says so. -/
theorem roundShift_false_nearest (h : Sits x (m / 2 ^ n) (m % 2 ^ n) (2 ^ n)) :
    NearestIntR mode x (roundShift mode false m n) := by
  have hd : (0 : ℝ) ≤ (m / 2 ^ n : ℕ) := Nat.cast_nonneg _
  have hx : 0 ≤ x := hd.trans h.le
  have hle := h.le
  have hlt := h.lt_succ
  have heq := h.eq_iff
  have hlow := h.near_low
  have hhigh := h.near_high
  rw [roundShift]
  generalize m / 2 ^ n = d at *
  generalize m % 2 ^ n = r at *
  generalize hk : 2 ^ n = k at *
  cases mode <;> simp only [roundsUp, hk]
  case rtz =>
    simp only [NearestIntR, Bool.false_eq_true, if_false, Nat.add_zero, Int.cast_natCast, Nat.abs_cast, abs_of_nonneg hx]
    exact ⟨hle, hlt, mul_nonneg hd hx⟩
  case rdn =>
    simpa [NearestIntR] using ⟨hle, hlt⟩
  case rup =>
    by_cases hr : r = 0
    · have he : x = d := heq.1 hr
      simpa [hr, he] using NearestIntR.self .rup d
    · have hne : (d : ℝ) ≠ x := fun he => hr (heq.2 he.symm)
      simpa [hr, NearestIntR] using ⟨hlt.le, lt_of_le_of_ne hle hne⟩
  case rne =>
    split
    case isTrue hr =>
      simp only [Bool.or_eq_true, Bool.and_eq_true, decide_eq_true_eq, beq_iff_eq] at hr
      obtain ⟨hnear, htie⟩ := hhigh (by omega)
      refine ⟨by simpa using hnear, fun ht => ?_⟩
      have := htie (by simpa using ht)
      omega
    case isFalse hr =>
      simp only [Bool.or_eq_true, Bool.and_eq_true, decide_eq_true_eq, beq_iff_eq] at hr
      obtain ⟨hnear, htie⟩ := hlow (by omega)
      refine ⟨by simpa using hnear, fun ht => ?_⟩
      have := htie (by simpa using ht)
      omega
  case rmm =>
    split
    case isTrue hr =>
      obtain ⟨hnear, -⟩ := hhigh (by simpa using hr)
      refine ⟨by push_cast; exact hnear, fun _ => ?_⟩
      push_cast
      rwa [abs_of_nonneg hx, abs_of_nonneg (by linarith)]
    case isFalse hr =>
      have hr : 2 * r < k := by simpa using hr
      obtain ⟨hnear, htie⟩ := hlow hr.le
      refine ⟨by simpa using hnear, fun ht => ?_⟩
      have := htie (by simpa using ht)
      omega

/-- The real number with a sign. -/
def signedReal (sign : Bool) (x : ℝ) : ℝ := if sign then -x else x

theorem signedReal_natCast (sign : Bool) (n : ℕ) : signedReal sign n = (FVal.signed sign n : ℤ) := by
  cases sign <;> simp [signedReal, FVal.signed]

theorem roundShift_nearest (sign : Bool) (h : Sits x (m / 2 ^ n) (m % 2 ^ n) (2 ^ n)) :
    NearestIntR mode (signedReal sign x) (FVal.signed sign (roundShift mode sign m n)) := by
  cases sign with
  | false => exact roundShift_false_nearest h
  | true =>
    rw [← roundShift_mirror]
    exact (roundShift_false_nearest h).neg

theorem roundsUp_zero (mode : RMode) (sign : Bool) (q n : ℕ) : roundsUp mode sign q 0 n = false := by
  have := Nat.two_pow_pos n
  cases mode <;> simp [roundsUp]
  omega

/-- The rounding is exact where there is no remainder. -/
theorem roundShift_exact_iff (mode : RMode) (sign : Bool) (h : Sits x (m / 2 ^ n) (m % 2 ^ n) (2 ^ n)) :
    m % 2 ^ n = 0 ↔ (roundShift mode sign m n : ℝ) = x := by
  refine ⟨fun h0 => ?_, fun hx => ?_⟩
  · rw [roundShift, h0, roundsUp_zero, h.eq_iff.1 h0]
    simp
  · have hlo := h.le
    have hhi := h.lt_succ
    rw [← hx] at hlo hhi
    have hd : roundShift mode sign m n = m / 2 ^ n := by
      refine Nat.le_antisymm (Nat.lt_succ_iff.1 ?_) (Nat.cast_le.1 hlo)
      exact_mod_cast hhi
    rw [h.eq_iff, ← hx, hd]

end

/-! ### Multiples of a power of two -/

section

variable {m : ℕ} {e q : ℤ} {x : ℝ}

theorem two_pow_toNat_mul {K : Type} [Field K] [CharZero K] (h : e ≤ q) :
    ((2 ^ (q - e).toNat : ℕ) : K) * 2 ^ e = 2 ^ q := by
  rw [Nat.cast_pow, Nat.cast_ofNat, ← zpow_natCast, ← zpow_add₀ two_ne_zero]
  congr 1
  omega

theorem sits_of_sticky (h : Sticky m e q x) (hlt : e < q) :
    Sits (x / 2 ^ q) (m / 2 ^ (q - e).toNat) (m % 2 ^ (q - e).toNat) (2 ^ (q - e).toNat) := by
  have hpos := Nat.two_pow_pos (q - e).toNat
  have hdiv : ∀ y : ℝ, y * 2 ^ e / 2 ^ q = y / (2 ^ (q - e).toNat : ℕ) := fun y => by
    rw [← two_pow_toNat_mul hlt.le, mul_div_mul_right _ _ (by positivity)]
  obtain hx | ⟨hodd, hlo, hhi, h2⟩ := h
  · exact sits_of_exact hpos (by rw [hx, hdiv])
  · refine sits_of_odd hpos (pow_dvd_pow 2 (show 2 ≤ (q - e).toNat by omega)) hodd ?_ ?_
    · rw [← hdiv]; gcongr
    · rw [← hdiv]; gcongr

/-- A number that is no multiple of a place below rounding's is held exactly. -/
theorem Sticky.eq_of_le (h : Sticky m e q x) (hle : q ≤ e) : x / 2 ^ q = (m * 2 ^ (e - q).toNat : ℕ) := by
  obtain rfl | ⟨-, -, -, h2⟩ := h
  · rw [div_eq_iff (by positivity), Nat.cast_mul, mul_assoc, two_pow_toNat_mul hle]
  · omega

theorem roundTo_nearest (mode : RMode) (sign : Bool) (h : Sticky m e q x) :
    NearestIntR mode (signedReal sign (x / 2 ^ q)) (FVal.signed sign (roundTo mode sign m e q)) := by
  rw [roundTo]
  split
  case isTrue hle =>
    rw [h.eq_of_le hle, signedReal_natCast]
    exact NearestIntR.self _ _
  case isFalse hlt => exact roundShift_nearest sign (sits_of_sticky h (by omega))

theorem exactAt_iff (mode : RMode) (sign : Bool) (h : Sticky m e q x) :
    exactAt m e q = true ↔ (roundTo mode sign m e q : ℝ) = x / 2 ^ q := by
  rw [roundTo, exactAt]
  by_cases hle : q ≤ e
  · simp [hle, h.eq_of_le hle]
  · simp [hle, ← roundShift_exact_iff mode sign (sits_of_sticky h (by omega))]

end

/-! ### The obligation -/

/-- The number of a datum, by the sign of its bits. -/
theorem Fmt.num_eq_some {f : Fmt} {a : Word} {x : ℚ} (h : f.num a = some x) :
    ∃ m e, f.val a = .fin (f.sign a) m e ∧ (x : ℝ) = signedReal (f.sign a) (m * 2 ^ e) := by
  obtain ⟨hlt, -⟩ := Fmt.eq_signedNum_of_num h
  refine ⟨_, _, Fmt.val_of_mag_lt hlt, ?_⟩
  rw [num, Fmt.val_of_mag_lt hlt] at h
  cases h
  cases f.sign a <;> simp [signedReal]

theorem signedReal_inj {sign : Bool} {x y : ℝ} : signedReal sign x = signedReal sign y ↔ x = y := by
  cases sign <;> simp [signedReal]

/-- A number converted to an integer type: rounded, and where that is outside the type saturated (44_fd.md R399). -/
theorem fpToInt_of_num {f : Fmt} {a : Word} {x : ℚ} (t : IntTy) (mode : RMode) (h : f.num a = some x) :
    ∃ i : ℤ, NearestInt mode x i ∧
      fpToInt f t mode a =
        if t.hi < i then (t.reg t.hi, flagNV) else if i < t.lo then (t.reg t.lo, flagNV)
        else (t.reg i, if (i : ℚ) = x then 0 else flagNX) := by
  obtain ⟨m, e, hval, hx⟩ := Fmt.num_eq_some h
  have hs : Sticky m e 0 ((m : ℝ) * 2 ^ e) := .inl rfl
  have hnear := roundTo_nearest mode (f.sign a) hs
  have hexact := exactAt_iff mode (f.sign a) hs
  rw [zpow_zero, div_one] at hnear hexact
  rw [← hx, nearestIntR_cast] at hnear
  refine ⟨_, hnear, ?_⟩
  have hflag : ((FVal.signed (f.sign a) (roundTo mode (f.sign a) m e 0) : ℤ) : ℚ) = x ↔ exactAt m e 0 = true := by
    rw [hexact, ← signedReal_inj (sign := f.sign a), ← hx, signedReal_natCast]
    norm_cast
  rw [fpToInt, hval]
  simp only [hflag, flagIf, Bool.not_eq_true', ← Bool.not_eq_true, ite_not]

/-- Settles O50: each instruction passes both checks; a number is rounded as one multiple of 1, a NaN and the infinities
saturate. -/
theorem floatToIntegerConversionsRoundAndSaturate : Obligations.FloatToIntegerConversionsRoundAndSaturate := by
  unfold Obligations.FloatToIntegerConversionsRoundAndSaturate
  refine ⟨fun s rd rs1 rm mode on hm => ?_, fun f t mode a => ⟨fun hnan => ?_, fun sign hinf => ?_,
    fun x => fpToInt_of_num t mode⟩, fun i => ⟨(word32_ofInt32 i).symm, (word32_ofInt32 i).symm, rfl, rfl⟩, rfl⟩
  · refine ⟨?_, ?_, ?_, ?_, ?_, ?_, ?_, ?_, ?_, ?_, ?_, ?_⟩ <;>
    exact computesFX_of_rounded on hm rfl rfl
  · rw [fpToInt, FVal.eq_nan_of_isNan hnan]
  · rw [fpToInt, hinf]

end Sys2Proof.Machine
end

section
/-! The numbers nearest to a real number (44_fd.md R391): a number rounded to a multiple of a power of two is rounded to any
set of numbers that has only such multiples near it. -/

namespace Sys2Proof.Machine

open Sys2Proof

section

variable {x t : ℝ} {i : ℤ} {l : ℕ}

/-- An integer, or a number nearer to 0 than `l`. -/
def OnGrid (l : ℕ) (t : ℝ) : Prop := (∃ j : ℤ, t = j) ∨ |t| < l

theorem dist_le_of_int (h : |(i : ℝ) - x| ≤ 1 / 2) (j : ℤ) :
    |(i : ℝ) - x| ≤ |(j : ℝ) - x| ∧ (|(i : ℝ) - x| = |(j : ℝ) - x| → j = i ∨ |(i : ℝ) - x| = 1 / 2) := by
  by_cases hj : j = i
  · rw [hj]; exact ⟨le_rfl, fun _ => .inl rfl⟩
  · have hone : (1 : ℝ) ≤ |(j : ℝ) - i| := by exact_mod_cast Int.one_le_abs (sub_ne_zero.2 hj)
    have htri : |(j : ℝ) - i| ≤ |(j : ℝ) - x| + |(i : ℝ) - x| := by
      rw [abs_sub_comm (i : ℝ) x]; exact abs_sub_le _ _ _
    exact ⟨by linarith, fun heq => .inr (by linarith)⟩

/-- A number nearer to 0 than `l` is farther from one beyond `l` than `l` or `-l` is. -/
theorem exists_int_dist_lt (hl : (l : ℝ) ≤ |x|) (ht : |t| < l) : ∃ j : ℤ, |(j : ℝ) - x| < |t - x| := by
  obtain ⟨hlo, hhi⟩ := abs_lt.1 ht
  obtain hx | hx := le_total 0 x
  · rw [abs_of_nonneg hx] at hl
    refine ⟨l, ?_⟩
    rw [Int.cast_natCast, abs_of_nonpos (by linarith), abs_of_nonpos (by linarith)]
    linarith
  · rw [abs_of_nonpos hx] at hl
    refine ⟨-l, ?_⟩
    rw [Int.cast_neg, Int.cast_natCast, abs_of_nonneg (by linarith), abs_of_nonneg (by linarith)]
    linarith

/-- Nothing on the grid is nearer than the nearest integer; what is as near is an integer half a unit off. -/
theorem dist_le_of_onGrid (h : |(i : ℝ) - x| ≤ 1 / 2) (hl : (l : ℝ) ≤ |x|) (ht : OnGrid l t) :
    |(i : ℝ) - x| ≤ |t - x| ∧
      (|(i : ℝ) - x| = |t - x| → t = i ∨ |(i : ℝ) - x| = 1 / 2 ∧ ∃ j : ℤ, t = j) := by
  obtain ⟨j, rfl⟩ | ht := ht
  · obtain ⟨hle, heq⟩ := dist_le_of_int h j
    exact ⟨hle, fun he => (heq he).imp (congrArg _) fun h2 => ⟨h2, j, rfl⟩⟩
  · obtain ⟨j, hj⟩ := exists_int_dist_lt hl ht
    have hlt := (dist_le_of_int h j).1.trans_lt hj
    exact ⟨hlt.le, fun heq => absurd heq hlt.ne⟩

theorem OnGrid.neg (h : OnGrid l t) : OnGrid l (-t) :=
  h.imp (fun ⟨j, hj⟩ => ⟨-j, by rw [hj, Int.cast_neg]⟩) fun h => by rwa [abs_neg]

theorem OnGrid.abs (h : OnGrid l t) : OnGrid l |t| :=
  h.imp (fun ⟨j, hj⟩ => ⟨|j|, by rw [hj, Int.cast_abs]⟩) fun h => by rwa [abs_abs]

/-- Nothing on the grid lies between a number and the integer below it. -/
theorem le_of_le_onGrid {a : ℝ} (hlt : a < i + 1) (hl : (l : ℝ) ≤ |a|) (ht : OnGrid l t) (hta : t ≤ a) :
    t ≤ i := by
  obtain ⟨j, rfl⟩ | ht := ht
  · have : (j : ℝ) < i + 1 := hta.trans_lt hlt
    exact_mod_cast Int.lt_add_one_iff.1 (by exact_mod_cast this)
  · obtain ⟨hlo, hhi⟩ := abs_lt.1 ht
    obtain ha | ha := le_total 0 a
    · rw [abs_of_nonneg ha] at hl
      have hli : ((l : ℤ) : ℝ) < i + 1 := by rw [Int.cast_natCast]; linarith
      have : ((l : ℤ) : ℝ) ≤ i := by exact_mod_cast Int.lt_add_one_iff.1 (by exact_mod_cast hli)
      rw [Int.cast_natCast] at this
      linarith
    · rw [abs_of_nonpos ha] at hl
      linarith

/-- Of two integers half a unit off, the one farther from 0 than the number is the farther one from 0. -/
theorem abs_lt_of_half {j : ℤ} (hi : |(i : ℝ) - x| = 1 / 2) (hj : |(j : ℝ) - x| = 1 / 2) (hx : |x| < |(i : ℝ)|)
    (hne : (j : ℝ) ≠ i) : |(j : ℝ)| < |(i : ℝ)| := by
  rw [← sq_lt_sq] at hx ⊢
  obtain hi | hi := (abs_eq (by norm_num)).1 hi <;> obtain hj | hj := (abs_eq (by norm_num)).1 hj
  · exact absurd (by linarith) hne
  · obtain rfl : x = i - 1 / 2 := by linarith
    have hij : (j : ℝ) = i - 1 := by linarith
    have hpos : (1 : ℝ) ≤ i := by
      have : (0 : ℝ) < i := by nlinarith
      exact_mod_cast this
    rw [hij]; nlinarith
  · obtain rfl : x = i + 1 / 2 := by linarith
    have hij : (j : ℝ) = i + 1 := by linarith
    have hneg : (i : ℝ) ≤ -1 := by
      have : (i : ℝ) < 0 := by nlinarith
      exact_mod_cast Int.le_sub_one_of_lt (by exact_mod_cast this : i < 0)
    rw [hij]; nlinarith
  · exact absurd (by linarith) hne

end

section

variable {numbers even : ℚ → Prop} {mode : RMode} {x u : ℝ} {i : ℤ} {y : ℚ} {l : ℕ}

/-- A number of the set is the nearest one to itself. -/
theorem Nearest.self (h : numbers y) : Nearest numbers even mode y y := by
  refine ⟨h, ?_⟩
  cases mode <;> simp only
  case rne | rmm =>
    intro z _
    simp only [sub_self, abs_zero, abs_nonneg, true_and]
    exact fun h => .inl (by exact_mod_cast sub_eq_zero.1 (abs_eq_zero.1 h.symm))
  case rtz => exact ⟨le_rfl, mul_self_nonneg _, fun z _ _ hz => by exact_mod_cast hz⟩
  case rdn | rup => exact ⟨le_rfl, fun z _ hz => by exact_mod_cast hz⟩

/-- A multiple of `u` nearest to a number is nearest to it in a set that has, from `l * u` up, only multiples of `u`. -/
theorem nearest_of_nearestIntR (hu : 0 < u) (hround : NearestIntR mode (x / u) i) (hy : (y : ℝ) = i * u)
    (hmem : numbers y) (heven : i % 2 = 0 → even y) (hl : (l : ℝ) ≤ |x / u|)
    (hgap : ∀ z : ℚ, numbers z → OnGrid l ((z : ℝ) / u)) : Nearest numbers even mode x y := by
  have hx : x = x / u * u := by field_simp
  have hz : ∀ z : ℚ, (z : ℝ) = z / u * u := fun z => by field_simp
  refine ⟨hmem, ?_⟩
  generalize x / u = a at *
  have hdist : ∀ t : ℝ, |t * u - x| = |t - a| * u := fun t => by rw [hx, ← sub_mul, abs_mul, abs_of_pos hu]
  cases mode <;> simp only [NearestIntR] at hround ⊢
  case rne =>
    intro z hzm
    obtain ⟨hle, heq⟩ := dist_le_of_onGrid hround.1 hl (hgap z hzm)
    rw [hy, hz z, hdist, hdist]
    refine ⟨by gcongr, fun h => ?_⟩
    obtain h | ⟨hhalf, -⟩ := heq (mul_right_cancel₀ hu.ne' h)
    · left
      have : (z : ℝ) = y := by rw [hz z, h, hy]
      exact_mod_cast this
    · exact .inr (heven (hround.2 hhalf))
  case rmm =>
    intro z hzm
    obtain ⟨hle, heq⟩ := dist_le_of_onGrid hround.1 hl (hgap z hzm)
    rw [hy, hz z, hdist, hdist]
    refine ⟨by gcongr, fun h => ?_⟩
    have h' := mul_right_cancel₀ hu.ne' h
    by_cases hzi : (z : ℝ) / u = i
    · left
      have : (z : ℝ) = y := by rw [hz z, hzi, hy]
      exact_mod_cast this
    · obtain ⟨hhalf, j, hj⟩ := (heq h').resolve_left hzi
      right
      rw [hj] at h' hzi ⊢
      rw [abs_mul, abs_mul]
      gcongr
      exact abs_lt_of_half hhalf (h'.symm.trans hhalf) (hround.2 hhalf) hzi
  case rtz =>
    obtain ⟨hle, hlt, hsign⟩ := hround
    rw [hx, hy, abs_mul, abs_mul, mul_mul_mul_comm]
    refine ⟨by gcongr, mul_nonneg hsign (mul_self_nonneg u), fun z hzm _ hza => ?_⟩
    rw [hz z, abs_mul] at hza
    have hbelow : |(z : ℝ) / u| ≤ ((|i| : ℤ) : ℝ) :=
      le_of_le_onGrid (a := |a|) (by push_cast; exact hlt) (by rwa [abs_abs]) (hgap z hzm).abs
        (le_of_mul_le_mul_right hza (abs_pos_of_pos hu))
    have : |(z : ℝ)| ≤ |(y : ℝ)| := by
      rw [hz z, hy, abs_mul, abs_mul]
      exact mul_le_mul_of_nonneg_right (by rwa [Int.cast_abs] at hbelow) (abs_nonneg u)
    exact_mod_cast this
  case rdn =>
    rw [hx, hy]
    refine ⟨by gcongr; exact hround.1, fun z hzm hza => ?_⟩
    rw [hz z] at hza
    have hbelow := le_of_le_onGrid hround.2 hl (hgap z hzm) (le_of_mul_le_mul_right hza hu)
    have : (z : ℝ) ≤ y := by rw [hz z, hy]; gcongr
    exact_mod_cast this
  case rup =>
    rw [hx, hy]
    refine ⟨by gcongr; exact hround.1, fun z hzm hza => ?_⟩
    rw [hz z] at hza
    have habove : -((z : ℝ) / u) ≤ ((-i : ℤ) : ℝ) :=
      le_of_le_onGrid (a := -a) (by push_cast; linarith [hround.2])
        (by rwa [abs_neg]) (hgap z hzm).neg (neg_le_neg (le_of_mul_le_mul_right hza hu))
    have : (y : ℝ) ≤ z := by
      rw [hz z, hy]
      gcongr
      push_cast at habove
      linarith
    exact_mod_cast this

end

end Sys2Proof.Machine
end

section
/-! Rounding to a format (44_fd.md R391, R392): the rounding of the model is the nearest number of the format, overflows where
the number rounded without bounds is too large, and is tiny where that one is too small. -/

namespace Sys2Proof.Machine

open Sys2Proof

/-! ### Signs -/

section

variable (sign : Bool)

/-- The rational number with a sign. -/
def signedRat (v : ℚ) : ℚ := (if sign then -1 else 1) * v

theorem cast_signedRat (v : ℚ) : ((signedRat sign v : ℚ) : ℝ) = signedReal sign v := by
  cases sign <;> simp [signedRat, signedReal]

theorem abs_signedRat (v : ℚ) : |signedRat sign v| = |v| := by cases sign <;> simp [signedRat]

theorem signedRat_natCast_mul (n : ℕ) (v : ℚ) : signedRat sign (n * v) = (FVal.signed sign n : ℤ) * v := by
  cases sign <;> simp [signedRat, FVal.signed]

theorem abs_signedReal (x : ℝ) : |signedReal sign x| = |x| := by cases sign <;> simp [signedReal]

theorem signedReal_div (x y : ℝ) : signedReal sign x / y = signedReal sign (x / y) := by
  cases sign <;> simp [signedReal, neg_div]

theorem signedReal_mul (x y : ℝ) : signedReal sign x * y = signedReal sign (x * y) := by
  cases sign <;> simp [signedReal]

theorem abs_signed (n : ℕ) : |FVal.signed sign n| = n := by cases sign <;> simp [FVal.signed]

theorem signed_emod_two (n : ℕ) : FVal.signed sign n % 2 = 0 ↔ n % 2 = 0 := by
  rw [FVal.signed]; split <;> omega

end

/-! ### The numbers of a format and those without bounds on the exponent -/

namespace Fmt

variable {f : Fmt} {z : ℚ} {n : ℕ}

theorem mul_zpow_div (m : ℝ) {e q : ℤ} (h : q ≤ e) : m * 2 ^ e / 2 ^ q = m * (2 ^ (e - q).toNat : ℕ) := by
  rw [div_eq_iff (by positivity), mul_assoc, two_pow_toNat_mul h]

/-- From the least significand of full precision up a number of that precision is a multiple of the place. -/
theorem unbounded_onGrid (h : f.unbounded z) (q : ℤ) : OnGrid (2 ^ f.mbits) ((z : ℝ) / 2 ^ q) := by
  obtain ⟨m, e, rfl, hm⟩ := h
  push_cast
  by_cases hle : q ≤ e
  · exact .inl ⟨m * (2 ^ (e - q).toNat : ℕ), by rw [mul_zpow_div _ hle]; push_cast; rfl⟩
  · right
    have hm' : |(m : ℝ)| < 2 ^ (f.mbits + 1) := by exact_mod_cast hm
    have he : (2 : ℝ) ^ e ≤ 2 ^ (q - 1) := zpow_le_zpow_right₀ one_le_two (by omega)
    rw [abs_div, abs_mul, abs_of_pos (show (0 : ℝ) < 2 ^ e by positivity), abs_of_pos (show (0 : ℝ) < 2 ^ q by positivity),
      div_lt_iff₀ (by positivity)]
    calc |(m : ℝ)| * 2 ^ e ≤ |(m : ℝ)| * 2 ^ (q - 1) := by gcongr
      _ < 2 ^ (f.mbits + 1) * 2 ^ (q - 1) := by gcongr
      _ = (2 ^ f.mbits : ℕ) * 2 ^ q := by rw [zpow_sub_one₀ two_ne_zero, pow_succ]; push_cast; ring

/-- A significand one past the greatest is the least one of the next exponent. -/
theorem exists_significand (hn : n ≤ 2 ^ (f.mbits + 1)) (q : ℤ) :
    ∃ (k : ℕ) (e : ℤ), (n : ℚ) * 2 ^ q = k * 2 ^ e ∧ k < 2 ^ (f.mbits + 1) ∧ (2 ^ f.mbits ≤ n → 2 ^ f.mbits ≤ k) ∧
      (n % 2 = 0 → k % 2 = 0) := by
  obtain hlt | rfl := Nat.lt_or_eq_of_le hn
  · exact ⟨n, q, rfl, hlt, id, id⟩
  · refine ⟨2 ^ f.mbits, q + 1, ?_, Nat.pow_lt_pow_right one_lt_two (Nat.lt_succ_self _), fun _ => le_rfl, fun _ => ?_⟩
    · rw [zpow_add_one₀ two_ne_zero]; push_cast; ring
    · obtain ⟨b, hb⟩ := Nat.exists_eq_add_of_le' f.mbits_pos
      rw [hb, pow_succ]; omega

theorem unbounded_of_le (hn : n ≤ 2 ^ (f.mbits + 1)) (sign : Bool) (q : ℤ) : f.unbounded (signedRat sign (n * 2 ^ q)) := by
  obtain ⟨k, e, heq, hk, -, -⟩ := exists_significand hn q
  refine ⟨FVal.signed sign k, e, by rw [heq, signedRat_natCast_mul], ?_⟩
  rw [abs_signed]
  exact_mod_cast hk

theorem evenUnbounded_of_le (hn : n ≤ 2 ^ (f.mbits + 1)) (sign : Bool) (q : ℤ) (hlo : 2 ^ f.mbits ≤ n) (heven : n % 2 = 0) :
    f.evenUnbounded (signedRat sign (n * 2 ^ q)) := by
  obtain ⟨k, e, heq, hk, hlo', heven'⟩ := exists_significand hn q
  refine ⟨FVal.signed sign k, e, by rw [heq, signedRat_natCast_mul], ?_, .inr ?_, (signed_emod_two sign k).2 (heven' heven)⟩
  · rw [abs_signed]; exact_mod_cast hk
  · rw [abs_signed]; exact_mod_cast hlo' hlo

theorem signedNum_eq (sign : Bool) (m : ℕ) : f.signedNum sign m = signedRat sign (f.magSig m * 2 ^ f.magExp m) := rfl

theorem unbounded_of_finite (h : f.finite z) : f.unbounded z := by
  obtain ⟨w, hw⟩ := h
  obtain ⟨-, rfl⟩ := eq_signedNum_of_num hw
  rw [signedNum_eq]
  exact unbounded_of_le (f.magSig_lt _).le _ _

/-- Every number of the format is a multiple of the smallest one. -/
theorem finite_onGrid (h : f.finite z) : OnGrid 0 ((z : ℝ) / 2 ^ (f.emin - f.mbits)) := by
  obtain ⟨w, hw⟩ := h
  obtain ⟨-, rfl⟩ := eq_signedNum_of_num hw
  have hexp : f.emin - f.mbits ≤ f.magExp (f.mag w) := by rw [magExp, emin]; omega
  rw [signedNum_eq, signedRat_natCast_mul]
  refine .inl ⟨FVal.signed (f.sign w) (f.magSig (f.mag w)) * (2 ^ (f.magExp (f.mag w) - (f.emin - f.mbits)).toNat : ℕ), ?_⟩
  push_cast
  rw [mul_zpow_div _ hexp]
  push_cast
  rfl

theorem finite_signedNum (sign : Bool) (h : n < f.infMag) : f.finite (f.signedNum sign n) := ⟨_, num_pack h⟩

theorem evenFinite_signedNum (sign : Bool) (h : n < f.infMag) (heven : n % 2 = 0) : f.evenFinite (f.signedNum sign n) :=
  ⟨_, num_pack h, getLsbD_zero_pack (h.trans f.infMag_lt) heven (by cases f <;> decide)⟩

/-! ### The magnitude of a rounded number -/

/-- The magnitude of `n` units of place `q`. -/
def magOf (f : Fmt) (n : ℕ) (q : ℤ) : ℕ :=
  if n < 2 ^ f.mbits then n else (q + f.mbits + f.bias).toNat * 2 ^ f.mbits + (n - 2 ^ f.mbits)

theorem magNum_magOf {q : ℤ} (hq : f.emin - f.mbits ≤ q) (hn : n ≤ 2 ^ (f.mbits + 1))
    (hsub : n < 2 ^ f.mbits → q = f.emin - f.mbits) : f.magNum (f.magOf n q) = n * 2 ^ q := by
  rw [magOf]
  split
  case isTrue hlt => rw [magNum_subnormal hlt.le, hsub hlt]
  case isFalse hge =>
    rw [emin] at hq
    rw [magNum_normal (by omega) (Nat.le_of_not_lt hge) hn]
    congr 2
    omega

theorem magOf_even {q : ℤ} (h : n % 2 = 0) : f.magOf n q % 2 = 0 := by
  obtain ⟨b, hb⟩ := Nat.exists_eq_add_of_le' f.mbits_pos
  rw [magOf, hb, pow_succ, ← mul_assoc]
  split <;> omega

end Fmt

/-! ### The rounded number -/

section

variable {mode : RMode} {sign : Bool} {m : ℕ} {e q : ℤ} {x : ℝ}

theorem le_roundTo (h : Sticky m e q x) {a : ℕ} (ha : (a : ℝ) ≤ x / 2 ^ q) : a ≤ roundTo mode sign m e q := by
  have hnear := roundTo_nearest mode sign h
  cases sign with
  | false => exact Int.ofNat_le.1 (hnear.le_of_le (j := a) (by exact_mod_cast ha))
  | true =>
    have hneg := hnear.ge_of_ge (j := -a) (by push_cast; exact neg_le_neg ha)
    simp only [FVal.signed] at hneg
    simpa using hneg

theorem roundTo_le (h : Sticky m e q x) {b : ℕ} (hb : x / 2 ^ q ≤ b) : roundTo mode sign m e q ≤ b := by
  have hnear := roundTo_nearest mode sign h
  cases sign with
  | false => exact Int.ofNat_le.1 (hnear.ge_of_ge (j := b) (by exact_mod_cast hb))
  | true =>
    have hneg := hnear.le_of_le (j := -b) (by push_cast; exact neg_le_neg hb)
    simp only [FVal.signed] at hneg
    simpa using hneg

/-- The rounding of the model is the nearest number of a set that has only multiples of its place near the number. -/
theorem nearest_roundTo {numbers even : ℚ → Prop} {l : ℕ} (h : Sticky m e q x) (hx : 0 ≤ x)
    (hmem : numbers (signedRat sign (roundTo mode sign m e q * 2 ^ q)))
    (heven : roundTo mode sign m e q % 2 = 0 → even (signedRat sign (roundTo mode sign m e q * 2 ^ q)))
    (hl : (l : ℝ) ≤ x / 2 ^ q) (hgap : ∀ z : ℚ, numbers z → OnGrid l ((z : ℝ) / 2 ^ q)) :
    Nearest numbers even mode (signedReal sign x) (signedRat sign (roundTo mode sign m e q * 2 ^ q)) := by
  have hnear := roundTo_nearest mode sign h
  rw [← signedReal_div] at hnear
  refine nearest_of_nearestIntR (show (0 : ℝ) < 2 ^ q by positivity) hnear ?_ hmem (fun h2 => heven ?_) ?_ hgap
  · rw [signedRat_natCast_mul]; push_cast; rfl
  · exact (signed_emod_two _ _).1 h2
  · rwa [signedReal_div, abs_signedReal, abs_of_nonneg (by positivity)]

end

end Sys2Proof.Machine
end

section
/-! A number rounded once to a format (44_fd.md R392): the result and the flags of `round`. -/

namespace Sys2Proof.Machine

open Sys2Proof

/-! ### The places -/

namespace Fmt

/-- The last place of a number in the precision of a format, the exponent unbounded. -/
def freePlace (f : Fmt) (m : ℕ) (e : ℤ) : ℤ := e + Nat.log2 m - f.mbits

/-- The last place of a number in a format: no lower than that of the smallest number. -/
def lastPlace (f : Fmt) (m : ℕ) (e : ℤ) : ℤ := max (f.freePlace m e) (f.emin - f.mbits)

/-- The number rounded with an unbounded exponent, in units of its last place. -/
def freeSig (f : Fmt) (mode : RMode) (sign : Bool) (m : ℕ) (e : ℤ) : ℕ := roundTo mode sign m e (f.freePlace m e)

/-- The number rounded to the format, in units of its last place. -/
def lastSig (f : Fmt) (mode : RMode) (sign : Bool) (m : ℕ) (e : ℤ) : ℕ := roundTo mode sign m e (f.lastPlace m e)

/-- The magnitude of the number rounded to the format, before overflow. -/
def roundedMag (f : Fmt) (mode : RMode) (sign : Bool) (m : ℕ) (e : ℤ) : ℕ :=
  f.magOf (f.lastSig mode sign m e) (f.lastPlace m e)

/-- Tininess after rounding (44_fd.md R392). -/
def isTiny (f : Fmt) (mode : RMode) (sign : Bool) (m : ℕ) (e : ℤ) : Bool :=
  decide (e + Nat.log2 m < f.emin) &&
    !(decide (e + Nat.log2 m + 1 = f.emin) && f.freeSig mode sign m e == 2 ^ (f.mbits + 1))

end Fmt

/-- `round` by its places. -/
theorem round_eq {f : Fmt} {mode : RMode} {sign : Bool} {m : ℕ} {e : ℤ} (hm : m ≠ 0) :
    round f mode sign m e =
      if f.infMag ≤ f.roundedMag mode sign m e then (overflow f mode sign, flagOF ||| flagNX)
      else (f.pack sign (f.roundedMag mode sign m e),
        flagIf (!exactAt m e (f.lastPlace m e) && f.isTiny mode sign m e) flagUF |||
          flagIf (!exactAt m e (f.lastPlace m e)) flagNX) := by
  rw [round, if_neg hm]
  rfl

/-! ### How large the number is -/

section

variable {f : Fmt} {mode : RMode} {sign : Bool} {m : ℕ} {e q : ℤ} {x : ℝ}

theorem Sticky.last (h : Sticky m e (f.freePlace m e) x) : Sticky m e (f.lastPlace m e) x := h.mono (le_max_left _ _)

/-- The number lies between the powers of two of its leading bit. -/
theorem Sticky.bounds (h : Sticky m e (f.freePlace m e) x) (hm : m ≠ 0) :
    (2 : ℝ) ^ (e + Nat.log2 m) ≤ x ∧ x < 2 ^ (e + Nat.log2 m + 1) := by
  have hlo := Nat.log2_self_le hm
  have hhi := Nat.lt_log2_self (n := m)
  have hpow : ∀ k : ℕ, (2 : ℝ) ^ (e + k) = (2 ^ k : ℕ) * 2 ^ e := fun k => by
    rw [add_comm, zpow_add₀ two_ne_zero, zpow_natCast, Nat.cast_pow, Nat.cast_ofNat]
  rw [add_assoc, show (Nat.log2 m : ℤ) + 1 = (Nat.log2 m + 1 : ℕ) by push_cast; rfl, hpow, hpow]
  obtain rfl | ⟨hodd, hxlo, hxhi, h2⟩ := h
  · exact ⟨by gcongr, by gcongr⟩
  · rw [Fmt.freePlace] at h2
    obtain ⟨b, hb⟩ := Nat.exists_eq_add_of_le' (show 1 ≤ Nat.log2 m by omega)
    have hlo1 : 2 ^ Nat.log2 m ≤ m - 1 := by rw [hb, pow_succ] at hlo ⊢; omega
    have hlo' : ((2 ^ Nat.log2 m : ℕ) : ℝ) ≤ m - 1 := by
      rw [← Nat.cast_one, ← Nat.cast_sub (Nat.pos_of_ne_zero hm)]
      exact Nat.cast_le.2 hlo1
    have hhi' : (m + 1 : ℝ) ≤ (2 ^ (Nat.log2 m + 1) : ℕ) := by exact_mod_cast hhi
    exact ⟨le_trans (by gcongr) hxlo.le, hxhi.trans_le (by gcongr)⟩

theorem two_pow_mul_freePlace : (2 ^ f.mbits : ℚ) * 2 ^ f.freePlace m e = 2 ^ (e + Nat.log2 m) := Fmt.two_pow_mul_zpow _

section

variable (h : Sticky m e (f.freePlace m e) x) (hm : m ≠ 0)
include h hm

theorem Sticky.pos : 0 < x := lt_of_lt_of_le (by positivity) (h.bounds hm).1

theorem le_div_freePlace : ((2 ^ f.mbits : ℕ) : ℝ) ≤ x / 2 ^ f.freePlace m e := by
  rw [le_div_iff₀ (by positivity), Fmt.freePlace]
  push_cast
  have hb := (h.bounds hm).1
  have hpow : (2 : ℝ) ^ f.mbits * 2 ^ (e + Nat.log2 m - f.mbits : ℤ) = 2 ^ (e + Nat.log2 m) := by
    rw [← zpow_natCast, ← zpow_add₀ two_ne_zero, add_sub_cancel]
  rwa [hpow]

theorem div_freePlace_le : x / 2 ^ f.freePlace m e ≤ (2 ^ (f.mbits + 1) : ℕ) := by
  rw [div_le_iff₀ (by positivity), Fmt.freePlace]
  push_cast
  have hb := (h.bounds hm).2.le
  have hpow : (2 : ℝ) ^ (f.mbits + 1) * 2 ^ (e + Nat.log2 m - f.mbits : ℤ) = 2 ^ (e + Nat.log2 m + 1) := by
    rw [← zpow_natCast, ← zpow_add₀ two_ne_zero]
    congr 1
    push_cast
    ring
  rwa [hpow]

theorem le_freeSig : 2 ^ f.mbits ≤ f.freeSig mode sign m e := le_roundTo h (le_div_freePlace h hm)

theorem freeSig_le : f.freeSig mode sign m e ≤ 2 ^ (f.mbits + 1) := roundTo_le h (div_freePlace_le h hm)

/-- The number rounded with an unbounded exponent. -/
theorem nearest_free :
    Nearest f.unbounded f.evenUnbounded mode (signedReal sign x)
      (signedRat sign (f.freeSig mode sign m e * 2 ^ f.freePlace m e)) :=
  nearest_roundTo h (h.pos hm).le (Fmt.unbounded_of_le (freeSig_le h hm) _ _)
    (Fmt.evenUnbounded_of_le (freeSig_le h hm) _ _ (le_freeSig h hm)) (le_div_freePlace h hm)
    fun _ hz => Fmt.unbounded_onGrid hz _

/-! ### The magnitude -/

theorem lastSig_le : f.lastSig mode sign m e ≤ 2 ^ (f.mbits + 1) := by
  refine roundTo_le h.last (le_trans ?_ (div_freePlace_le h hm))
  have := (h.pos hm).le
  gcongr
  · exact one_le_two
  · exact le_max_left _ _

theorem lastPlace_of_lastSig_lt (hlt : f.lastSig mode sign m e < 2 ^ f.mbits) :
    f.lastPlace m e = f.emin - f.mbits := by
  by_contra hne
  have hfree : f.lastPlace m e = f.freePlace m e := (max_choice _ _).resolve_right hne
  rw [Fmt.lastSig, hfree] at hlt
  exact absurd (le_freeSig h hm) (not_le.2 hlt)

theorem magNum_roundedMag :
    f.magNum (f.roundedMag mode sign m e) = f.lastSig mode sign m e * 2 ^ f.lastPlace m e :=
  Fmt.magNum_magOf (le_max_right _ _) (lastSig_le h hm) (lastPlace_of_lastSig_lt h hm)

/-- Where the number is normal both roundings are the same. -/
theorem magNum_roundedMag_of_le (hn : f.emin ≤ e + Nat.log2 m) :
    f.magNum (f.roundedMag mode sign m e) = f.freeSig mode sign m e * 2 ^ f.freePlace m e := by
  have hplace : f.lastPlace m e = f.freePlace m e := max_eq_left (by rw [Fmt.freePlace]; omega)
  rw [magNum_roundedMag h hm, Fmt.lastSig, hplace, Fmt.freeSig]

theorem two_pow_le_free : (2 : ℚ) ^ (e + Nat.log2 m) ≤ f.freeSig mode sign m e * 2 ^ f.freePlace m e := by
  rw [← two_pow_mul_freePlace (f := f)]
  gcongr
  exact_mod_cast le_freeSig h hm

theorem free_le_two_pow : (f.freeSig mode sign m e * 2 ^ f.freePlace m e : ℚ) ≤ 2 ^ (e + Nat.log2 m + 1) := by
  rw [zpow_add_one₀ two_ne_zero, ← two_pow_mul_freePlace (f := f), mul_right_comm, ← pow_succ]
  gcongr
  exact_mod_cast freeSig_le h hm

/-- A number below the smallest normal one rounds to that one at most. -/
theorem roundedMag_le_of_lt (hs : e + Nat.log2 m < f.emin) : f.roundedMag mode sign m e ≤ 2 ^ f.mbits := by
  have hplace : f.lastPlace m e = f.emin - f.mbits := max_eq_right (by rw [Fmt.freePlace]; omega)
  have hsig : f.lastSig mode sign m e ≤ 2 ^ f.mbits := by
    refine roundTo_le h.last ?_
    rw [hplace, div_le_iff₀ (by positivity)]
    have hlt := (h.bounds hm).2
    have hle : (2 : ℝ) ^ (e + Nat.log2 m + 1) ≤ 2 ^ f.emin := zpow_le_zpow_right₀ one_le_two (by omega)
    have hpow : ((2 ^ f.mbits : ℕ) : ℝ) * 2 ^ (f.emin - f.mbits) = 2 ^ f.emin := by
      rw [Nat.cast_pow, Nat.cast_ofNat, ← zpow_natCast, ← zpow_add₀ two_ne_zero, add_sub_cancel]
    rw [hpow]
    linarith
  rw [← Fmt.magNum_strictMono.le_iff_le (f := f.magNum), magNum_roundedMag h hm, hplace, Fmt.magNum_subnormal le_rfl]
  gcongr

/-! ### Overflow and tininess -/

/-- The number overflows exactly when it exceeds the greatest one, rounded with an unbounded exponent (44_fd.md R392). -/
theorem greatest_lt_free_iff :
    f.greatest < f.freeSig mode sign m e * 2 ^ f.freePlace m e ↔ f.infMag ≤ f.roundedMag mode sign m e := by
  have hpos : 0 < 2 ^ f.mbits := Nat.two_pow_pos _
  have hlt : 2 ^ f.mbits < f.infMag := f.two_pow_mbits_lt_infMag
  rw [← Fmt.magNum_infMag_pred]
  by_cases hn : f.emin ≤ e + Nat.log2 m
  · rw [← magNum_roundedMag_of_le h hm hn, Fmt.magNum_strictMono.lt_iff_lt]
    omega
  · have hmag := roundedMag_le_of_lt (mode := mode) (sign := sign) h hm (not_le.1 hn)
    refine iff_of_false (not_lt.2 ?_) (by omega)
    calc (f.freeSig mode sign m e * 2 ^ f.freePlace m e : ℚ) ≤ 2 ^ (e + Nat.log2 m + 1) := free_le_two_pow h hm
      _ ≤ 2 ^ f.emin := zpow_le_zpow_right₀ one_le_two (by omega)
      _ = f.magNum (2 ^ f.mbits) := Fmt.magNum_two_pow_mbits.symm
      _ ≤ f.magNum (f.infMag - 1) := Fmt.magNum_strictMono.monotone (by omega)

/-- The number is tiny exactly when it lies below the smallest normal one, rounded with an unbounded exponent. -/
theorem free_lt_two_pow_emin_iff :
    f.freeSig mode sign m e * 2 ^ f.freePlace m e < (2 : ℚ) ^ f.emin ↔ f.isTiny mode sign m e = true := by
  have hlo := two_pow_le_free (mode := mode) (sign := sign) h hm
  have hhi := free_le_two_pow (mode := mode) (sign := sign) h hm
  rw [Fmt.isTiny]
  obtain hlt | heq | hgt := lt_trichotomy (e + Nat.log2 m + 1) f.emin
  · have hpow : (2 : ℚ) ^ (e + Nat.log2 m + 1) < 2 ^ f.emin := zpow_lt_zpow_right₀ one_lt_two hlt
    simp [hlt.ne, show e + (Nat.log2 m : ℤ) < f.emin by omega, hhi.trans_lt hpow]
  · have hsig := freeSig_le (mode := mode) (sign := sign) h hm
    have hpow : (2 : ℚ) ^ f.emin = (2 ^ (f.mbits + 1) : ℕ) * 2 ^ f.freePlace m e := by
      rw [← heq, zpow_add_one₀ two_ne_zero, ← two_pow_mul_freePlace (f := f)]
      push_cast
      ring
    rw [hpow, mul_lt_mul_iff_left₀ (by positivity), Nat.cast_lt, hsig.lt_iff_ne]
    simp [heq, show e + (Nat.log2 m : ℤ) < f.emin by omega]
  · have hpow : (2 : ℚ) ^ f.emin ≤ 2 ^ (e + Nat.log2 m) := zpow_le_zpow_right₀ one_le_two (by omega)
    simp [show ¬ e + (Nat.log2 m : ℤ) < f.emin by omega, hpow.trans hlo]

/-- The number rounded to the format, where it does not overflow. -/
theorem nearest_last (hlt : f.roundedMag mode sign m e < f.infMag) :
    Nearest f.finite f.evenFinite mode (signedReal sign x) (f.signedNum sign (f.roundedMag mode sign m e)) := by
  have hnum : f.signedNum sign (f.roundedMag mode sign m e) =
      signedRat sign (f.lastSig mode sign m e * 2 ^ f.lastPlace m e) := by
    rw [← magNum_roundedMag h hm]; rfl
  have hx := (h.pos hm).le
  have hmem := Fmt.finite_signedNum sign hlt
  have heven := fun h2 => Fmt.evenFinite_signedNum sign hlt (Fmt.magOf_even (q := f.lastPlace m e) h2)
  rw [hnum] at hmem heven ⊢
  obtain hfree | hmin : f.lastPlace m e = f.freePlace m e ∨ f.lastPlace m e = f.emin - f.mbits := max_choice _ _
  · refine nearest_roundTo h.last hx hmem heven (l := 2 ^ f.mbits) ?_ fun z hz => ?_
    · rw [hfree]; exact le_div_freePlace h hm
    · exact Fmt.unbounded_onGrid (Fmt.unbounded_of_finite hz) _
  · refine nearest_roundTo h.last hx hmem heven (l := 0) ?_ fun z hz => ?_
    · rw [Nat.cast_zero]; positivity
    · rw [hmin]; exact Fmt.finite_onGrid hz

end

end

end Sys2Proof.Machine
end

section
/-! The arithmetic of a format (44_fd.md R392, R397, R402, R405): what `round` gives meets `RoundsTo`, and sums, products and
conversions are exact before they are rounded. -/

namespace Sys2Proof.Machine

open Sys2Proof

section

variable {f : Fmt} {mode : RMode} {sign : Bool} {m : ℕ} {e : ℤ} {x : ℝ}

/-! ### Signs of the number rounded -/

theorem signedReal_neg_iff (hx : 0 < x) : signedReal sign x < 0 ↔ sign = true := by
  cases sign <;> simp [signedReal, hx, hx.le]

theorem signedReal_pos_iff (hx : 0 < x) : 0 < signedReal sign x ↔ sign = false := by
  cases sign <;> simp [signedReal, hx, hx.le]

/-! ### Overflow -/

theorem Fmt.num_largest (f : Fmt) (sign : Bool) : f.num (f.largest sign) = some (signedRat sign f.greatest) := by
  have hpos : 0 < f.infMag := (Nat.two_pow_pos _).trans f.two_pow_mbits_lt_infMag
  rw [← Fmt.magNum_infMag_pred]
  exact Fmt.num_pack (show f.infMag - 1 < f.infMag by omega)

theorem toNat_overflow_lt (f : Fmt) (mode : RMode) (sign : Bool) : (overflow f mode sign).toNat < 2 ^ f.width := by
  have hinf : ∀ sign, (f.inf sign).toNat < 2 ^ f.width := fun _ => Fmt.toNat_pack_lt f.infMag_lt
  have hlargest : ∀ sign, (f.largest sign).toNat < 2 ^ f.width :=
    fun _ => Fmt.toNat_pack_lt ((Nat.sub_le _ _).trans_lt f.infMag_lt)
  cases mode <;> simp only [overflow]
  case rne | rmm => exact hinf _
  case rtz => exact hlargest _
  case rdn | rup => split <;> simp only [hinf, hlargest]

/-- The result of an overflow, by the mode and the sign (44_fd.md R392). -/
theorem overflow_spec (f : Fmt) (mode : RMode) (sign : Bool) (hx : 0 < x) :
    if mode = .rne ∨ mode = .rmm ∨ mode = .rdn ∧ signedReal sign x < 0 ∨ mode = .rup ∧ 0 < signedReal sign x then
      overflow f mode sign = f.inf (decide (signedReal sign x < 0))
    else f.num (overflow f mode sign) = some (if signedReal sign x < 0 then -f.greatest else f.greatest) := by
  have hlargest : f.num (f.largest sign) = some (if sign = true then -f.greatest else f.greatest) := by
    rw [Fmt.num_largest]; cases sign <;> simp [signedRat]
  simp only [signedReal_neg_iff hx, signedReal_pos_iff hx]
  cases mode
  case rne | rmm => simp [overflow]
  case rtz => simpa [overflow] using hlargest
  case rdn =>
    cases sign
    · simpa [overflow] using hlargest
    · simp [overflow]
  case rup =>
    cases sign
    · simp [overflow]
    · simpa [overflow] using hlargest

/-! ### Rounding once -/

theorem flags_eq (inexact tiny : Bool) :
    (flagIf (inexact && tiny) flagUF ||| flagIf inexact flagNX) =
      if inexact = false then 0 else if tiny = true then flagUF ||| flagNX else flagNX := by
  revert inexact tiny; decide

/-- `round` gives the number rounded once to the format, with the flags and the overflow of 44_fd.md R392. -/
theorem round_roundsTo (h : Sticky m e (f.freePlace m e) x) (hm : m ≠ 0) :
    RoundsTo f mode (signedReal sign x) (round f mode sign m e) := by
  have hx := h.pos hm
  have hnonneg : (0 : ℚ) ≤ f.freeSig mode sign m e * 2 ^ f.freePlace m e := by positivity
  have hover := greatest_lt_free_iff (mode := mode) (sign := sign) h hm
  have htiny := free_lt_two_pow_emin_iff (mode := mode) (sign := sign) h hm
  rw [round_eq hm]
  by_cases hinf : f.infMag ≤ f.roundedMag mode sign m e
  · rw [if_pos hinf]
    refine ⟨toNat_overflow_lt .., _, nearest_free h hm, ?_⟩
    rw [abs_signedRat, abs_of_nonneg hnonneg, if_pos (hover.2 hinf)]
    exact ⟨rfl, overflow_spec f mode sign hx⟩
  · rw [if_neg hinf]
    have hlt := not_le.1 hinf
    have hmag := hlt.trans f.infMag_lt
    refine ⟨Fmt.toNat_pack_lt hmag, _, nearest_free h hm, ?_⟩
    rw [abs_signedRat, abs_of_nonneg hnonneg, if_neg (mt hover.1 hinf)]
    have hexact : ((f.signedNum sign (f.roundedMag mode sign m e) : ℚ) : ℝ) = signedReal sign x ↔
        (!exactAt m e (f.lastPlace m e)) = false := by
      rw [Bool.not_eq_false', exactAt_iff mode sign h.last, eq_div_iff (by positivity),
        show f.signedNum sign (f.roundedMag mode sign m e) = signedRat sign (f.magNum _) from rfl, cast_signedRat,
        signedReal_inj, magNum_roundedMag h hm]
      push_cast
      rfl
    refine ⟨_, Fmt.num_pack hlt, nearest_last h hm hlt, fun _ => ?_, ?_⟩
    · rw [Fmt.sign_pack hmag, eq_comm]
      simp only [signedReal_neg_iff hx, Bool.decide_eq_true]
    · rw [flags_eq]
      simp only [hexact, htiny]

theorem Fmt.greatest_pos (f : Fmt) : 0 < f.greatest := by
  have hlt := f.two_pow_mbits_lt_infMag
  have hpos := Nat.two_pow_pos f.mbits
  rw [← Fmt.magNum_infMag_pred, Fmt.magNum_pos]
  omega

/-- An exact zero is rounded to a zero of either sign. -/
theorem roundsTo_zero (f : Fmt) (mode : RMode) (sign : Bool) : RoundsTo f mode 0 (f.zero sign, 0) := by
  have hnum := (num_zero f sign).1
  have hself : ∀ {numbers even : ℚ → Prop}, numbers 0 → Nearest numbers even mode 0 0 := fun h => by
    simpa using Nearest.self (mode := mode) h
  refine ⟨Fmt.toNat_pack_lt (Nat.two_pow_pos _), 0, hself ⟨0, 0, by simp, by simp⟩, ?_⟩
  rw [abs_zero, if_neg f.greatest_pos.le.not_gt]
  exact ⟨0, hnum, hself ⟨_, hnum⟩, absurd rfl, (if_pos Rat.cast_zero).symm⟩

end

/-! ### Exact results -/

/-- A finite datum of a sign, and the number it stands for. -/
def FVal.Is (v : FVal) (sign : Bool) (x : ℚ) : Prop := ∃ m e, v = .fin sign m e ∧ x = (FVal.signed sign m : ℤ) * 2 ^ e

section

variable {f : Fmt} {mode : RMode} {v w : FVal} {s t : Bool} {x y : ℚ}

theorem Fmt.is_of_num {a : Word} (h : f.num a = some x) : (f.val a).Is (f.sign a) x := by
  obtain ⟨m, e, hval, hx⟩ := Fmt.num_eq_some h
  refine ⟨m, e, hval, ?_⟩
  have : (x : ℝ) = ((((FVal.signed (f.sign a) m : ℤ) * 2 ^ e : ℚ)) : ℝ) := by
    rw [hx, ← signedReal_mul, signedReal_natCast]
    push_cast
    rfl
  exact_mod_cast this

theorem FVal.signed_xor (s t : Bool) (m n : ℕ) : FVal.signed (s ^^ t) (m * n) = FVal.signed s m * FVal.signed t n := by
  cases s <;> cases t <;> simp [FVal.signed]

theorem FVal.signed_decide_neg (n : ℤ) : FVal.signed (decide (n < 0)) n.natAbs = n := by
  rw [FVal.signed]
  split <;> rename_i h <;> simp at h <;> omega

theorem FVal.Is.mul (hv : v.Is s x) (hw : w.Is t y) : (v.mul w).Is (s ^^ t) (x * y) := by
  obtain ⟨m, e, rfl, rfl⟩ := hv
  obtain ⟨n, k, rfl, rfl⟩ := hw
  refine ⟨m * n, e + k, rfl, ?_⟩
  rw [FVal.signed_xor, zpow_add₀ two_ne_zero]
  push_cast
  ring

theorem FVal.Is.negIf (b : Bool) (hv : v.Is s x) : (v.negIf b).Is (s ^^ b) (if b then -x else x) := by
  obtain ⟨m, e, rfl, rfl⟩ := hv
  refine ⟨m, e, FVal.negIf_fin b s m e, ?_⟩
  cases b <;> cases s <;> simp [FVal.signed]

/-- A number in units of a lower place. -/
theorem FVal.signed_mul_pow {e k : ℤ} (h : k ≤ e) (s : Bool) (m : ℕ) :
    (FVal.signed s (m * 2 ^ (e - k).toNat) : ℚ) * 2 ^ k = FVal.signed s m * 2 ^ e := by
  have hsigned := FVal.signed_xor s false m (2 ^ (e - k).toNat)
  rw [Bool.xor_false, show FVal.signed false (2 ^ (e - k).toNat) = (2 ^ (e - k).toNat : ℕ) from rfl] at hsigned
  rw [hsigned, ← two_pow_toNat_mul h]
  push_cast
  ring

/-- The sign of a sum: of a sum that is zero, the sign of its terms or the one of the mode (44_fd.md R392). -/
theorem FVal.Is.add (mode : RMode) (hv : v.Is s x) (hw : w.Is t y) :
    ∃ r, (v.add mode w).Is r (x + y) ∧ (x + y = 0 → r = if s = t then s else decide (mode = .rdn)) := by
  obtain ⟨m, e, rfl, rfl⟩ := hv
  obtain ⟨n, k, rfl, rfl⟩ := hw
  rw [FVal.add, FVal.addFin, ← FVal.signed_mul_pow (min_le_left e k), ← FVal.signed_mul_pow (min_le_right e k), ← add_mul]
  generalize FVal.signed s _ = i
  generalize FVal.signed t _ = j
  split
  case isTrue h0 =>
    have h0' : (i + j : ℚ) = 0 := by exact_mod_cast h0
    rw [h0', zero_mul]
    exact ⟨_, ⟨0, 0, rfl, by split <;> simp [FVal.signed]⟩, fun _ => rfl⟩
  case isFalse h0 =>
    have h0' : (i + j : ℚ) ≠ 0 := by exact_mod_cast h0
    refine ⟨_, ⟨_, _, rfl, ?_⟩, fun hz => absurd hz (mul_ne_zero h0' (by positivity))⟩
    rw [FVal.signed_decide_neg]
    push_cast
    rfl

/-- An exact result is rounded once. -/
theorem FVal.Is.roundsTo (f : Fmt) (mode : RMode) (h : v.Is s x) : RoundsTo f mode x (roundVal f mode v) := by
  obtain ⟨m, e, rfl, rfl⟩ := h
  obtain rfl | hm := eq_or_ne m 0
  · rw [show ((FVal.signed s 0 : ℤ) : ℚ) = 0 by simp [FVal.signed], zero_mul, Rat.cast_zero]
    exact roundsTo_zero f mode s
  · have hround := round_roundsTo (f := f) (mode := mode) (sign := s) (.inl rfl : Sticky m e _ (m * 2 ^ e)) hm
    rw [← signedReal_mul, signedReal_natCast] at hround
    push_cast
    exact hround

/-- A zero result keeps the sign of the exact one. -/
theorem FVal.Is.sign_roundVal (f : Fmt) (mode : RMode) (h : v.Is s x) (hx : x = 0) :
    f.sign (roundVal f mode v).1 = s := by
  obtain ⟨m, e, rfl, rfl⟩ := h
  obtain rfl : m = 0 := by
    have hz : FVal.signed s m = 0 := by
      exact_mod_cast (mul_eq_zero.1 hx).resolve_right (by positivity)
    rw [FVal.signed] at hz
    split at hz <;> omega
  exact (num_zero f s).2

/-- A sum rounded once, and its sign where it is zero. -/
theorem FVal.Is.add_rounded (f : Fmt) (mode : RMode) (hv : v.Is s x) (hw : w.Is t y) :
    RoundsTo f mode (x + y : ℚ) (roundVal f mode (v.add mode w)) ∧
      (x + y = 0 → f.sign (roundVal f mode (v.add mode w)).1 = if s = t then s else decide (mode = .rdn)) := by
  obtain ⟨r, hr, hsign⟩ := hv.add mode hw
  exact ⟨hr.roundsTo f mode, fun h => (hr.sign_roundVal f mode h).trans (hsign h)⟩

theorem FVal.is_int (i : ℤ) : (FVal.fin (decide (i < 0)) i.natAbs 0).Is (decide (i < 0)) i :=
  ⟨_, _, rfl, by rw [FVal.signed_decide_neg, zpow_zero, mul_one]⟩

end

/-! ### The obligation -/

/-- A fused form rounded once (44_fd.md R397). -/
theorem fused_rounded {f : Fmt} {a b c : Word} {x y z : ℚ} (mode : RMode) (ha : f.num a = some x) (hb : f.num b = some y)
    (hc : f.num c = some z) :
    ∀ form ∈ [(fpMadd, false, false), (fpMsub, false, true), (fpNmsub, true, false), (fpNmadd, true, true)],
      let sp := (f.sign a ^^ f.sign b) ^^ form.2.1
      let st := f.sign c ^^ form.2.2
      let sum := (if form.2.1 then -(x * y) else x * y) + (if form.2.2 then -z else z)
      RoundsTo f mode (sum : ℚ) (form.1 f mode a b c) ∧
        (sum = 0 → f.sign (form.1 f mode a b c).1 = if sp = st then sp else decide (mode = .rdn)) := by
  intro form hform
  rw [fused_eq f mode a b c form hform]
  exact (((Fmt.is_of_num ha).mul (Fmt.is_of_num hb)).negIf _).add_rounded f mode ((Fmt.is_of_num hc).negIf _)

/-- Settles O55: sums, products and conversions are exact, with the signs of their terms, and then rounded once. -/
theorem exactResultsAreRoundedOnce : Obligations.ExactResultsAreRoundedOnce := by
  unfold Obligations.ExactResultsAreRoundedOnce
  intro f g mode a b c x y z i ha hb hc sum sa sb sc
  have isA := Fmt.is_of_num ha
  have isB := Fmt.is_of_num hb
  have hfused := fused_rounded mode ha hb hc
  obtain ⟨hadd, hadd0⟩ := isA.add_rounded f mode isB
  obtain ⟨hsub, hsub0⟩ := isA.add_rounded f mode (isB.negIf true)
  obtain ⟨hmadd, hmadd0⟩ := hfused (fpMadd, false, false) (by simp)
  obtain ⟨hmsub, hmsub0⟩ := hfused (fpMsub, false, true) (by simp)
  obtain ⟨hnmsub, hnmsub0⟩ := hfused (fpNmsub, true, false) (by simp)
  obtain ⟨hnmadd, hnmadd0⟩ := hfused (fpNmadd, true, true) (by simp)
  simp only [if_true, Bool.false_eq_true, if_false, ← sub_eq_add_neg, Bool.xor_false, Bool.xor_true] at *
  exact ⟨⟨hadd, hsub, (isA.mul isB).roundsTo f mode, hmadd, hmsub, hnmsub, hnmadd, (FVal.is_int i).roundsTo f mode,
      isA.roundsTo g mode⟩,
    hadd0, hsub0, (isA.mul isB).sign_roundVal f mode, hmadd0, hmsub0, hnmsub0, hnmadd0,
    (FVal.is_int 0).sign_roundVal f mode Int.cast_zero, isA.sign_roundVal g mode⟩

end Sys2Proof.Machine
end

section
/-! Quotients and square roots (44_fd.md R392): the model cuts them off two bits below the last place and keeps one bit more for
what it cut off, from which rounding gives what it gives from the exact value. -/

namespace Sys2Proof.Machine

open Sys2Proof

section

variable {f : Fmt} {t x y : ℝ} {d : ℕ}

/-- A number cut off to an integer with two bits to spare, and a last bit that says whether that was exact. -/
theorem sticky_of_cut {exact : Prop} [Decidable exact] (hd : 2 ^ (f.mbits + 2) ≤ d) (heq : exact → t = d)
    (hcut : ¬ exact → (d : ℝ) < t ∧ t < d + 1) (e : ℤ) :
    Sticky (2 * d + if exact then 0 else 1) e (f.freePlace (2 * d + if exact then 0 else 1) e) (t * 2 ^ (e + 1)) := by
  rw [zpow_add_one₀ two_ne_zero]
  by_cases hx : exact
  · left
    rw [heq hx, if_pos hx]
    push_cast
    ring
  · obtain ⟨hlo, hhi⟩ := hcut hx
    have hpos : (0 : ℝ) < 2 ^ e := by positivity
    have hlog : f.mbits + 2 ≤ Nat.log2 (2 * d + 1) := (Nat.le_log2 (by omega)).2 (by omega)
    rw [if_neg hx, Fmt.freePlace]
    refine .inr ⟨by omega, ?_, ?_, by omega⟩
    · push_cast
      linarith [mul_lt_mul_of_pos_right hlo hpos]
    · push_cast
      linarith [mul_lt_mul_of_pos_right hhi hpos]

/-- A number cut off is rounded as the number. -/
theorem roundsTo_of_cut {exact : Prop} [Decidable exact] (hd : 2 ^ (f.mbits + 2) ≤ d) (heq : exact → t = d)
    (hcut : ¬ exact → (d : ℝ) < t ∧ t < d + 1) (mode : RMode) (sign : Bool) (e : ℤ) :
    RoundsTo f mode (signedReal sign (t * 2 ^ (e + 1)))
      (round f mode sign (2 * d + if exact then 0 else 1) e) := by
  have hpos := Nat.two_pow_pos (f.mbits + 2)
  exact round_roundsTo (sticky_of_cut hd heq hcut e) (by omega)

/-! ### Quotients -/

theorem signedReal_div_signedReal (s u : Bool) : signedReal s x / signedReal u y = signedReal (s ^^ u) (x / y) := by
  cases s <;> cases u <;> simp [signedReal, neg_div, div_neg]

/-- A quotient of integers between its neighbours. -/
theorem natDiv_cut {a n : ℕ} (hn : 0 < n) :
    (a % n = 0 → (a : ℝ) / n = (a / n : ℕ)) ∧
      (¬ a % n = 0 → ((a / n : ℕ) : ℝ) < (a : ℝ) / n ∧ (a : ℝ) / n < (a / n : ℕ) + 1) := by
  have hs := sits_of_exact hn (rfl : (a : ℝ) / n = (a : ℝ) / n)
  exact ⟨hs.eq_iff.1, fun h => ⟨lt_of_le_of_ne hs.le fun he => h (hs.eq_iff.2 he.symm), hs.lt_succ⟩⟩

/-- A quotient of finite numbers, rounded once. -/
theorem divFin_roundsTo (f : Fmt) (mode : RMode) (sign : Bool) {m n : ℕ} (hm : m ≠ 0) (hn : 0 < n) (e k : ℤ) :
    RoundsTo f mode (signedReal sign ((m * 2 ^ e) / (n * 2 ^ k)))
      (roundVal f mode (FVal.divFin (f.mbits + 2) sign m e n k)) := by
  obtain ⟨heq, hcut⟩ := natDiv_cut (a := m * 2 ^ (f.mbits + 2 + 1 + Nat.log2 n)) hn
  have hd : 2 ^ (f.mbits + 2) ≤ m * 2 ^ (f.mbits + 2 + 1 + Nat.log2 n) / n := by
    rw [Nat.le_div_iff_mul_le hn, add_assoc, pow_add _ _ (1 + Nat.log2 n), ← mul_assoc, mul_comm m, mul_assoc]
    have hlog := (Nat.lt_log2_self (n := n)).le
    rw [add_comm 1]
    exact Nat.mul_le_mul_left _ (hlog.trans (Nat.le_mul_of_pos_left _ (Nat.pos_of_ne_zero hm)))
  have hround := roundsTo_of_cut hd heq hcut mode sign (e - k - (f.mbits + 2 + 1 + Nat.log2 n : ℕ) - 1)
  have hvalue : ((m * 2 ^ (f.mbits + 2 + 1 + Nat.log2 n) : ℕ) : ℝ) / n *
      2 ^ (e - k - (f.mbits + 2 + 1 + Nat.log2 n : ℕ) - 1 + 1) = (m * 2 ^ e) / (n * 2 ^ k) := by
    rw [sub_add_cancel, zpow_sub₀ two_ne_zero, zpow_sub₀ two_ne_zero, zpow_natCast]
    push_cast
    field_simp
  rw [hvalue] at hround
  exact hround

theorem divFin_zero (p : ℕ) (sign : Bool) (e : ℤ) (n : ℕ) (k : ℤ) :
    ∃ e', FVal.divFin p sign 0 e n k = .fin sign 0 e' := ⟨_, by rw [FVal.divFin, zero_mul, Nat.zero_div, Nat.zero_mod]; rfl⟩

/-! ### Square roots -/

theorem isqrtFrom_eq_sqrt {n b r : ℕ} (hlo : r ≤ n.sqrt) (hhi : n.sqrt < r + 2 ^ b) : FVal.isqrtFrom n b r = n.sqrt := by
  induction b generalizing r with
  | zero => rw [FVal.isqrtFrom]; omega
  | succ b ih =>
    rw [pow_succ] at hhi
    rw [FVal.isqrtFrom]
    split
    case isTrue h => exact ih (Nat.le_sqrt.2 h) (by omega)
    case isFalse h => exact ih hlo (Nat.sqrt_lt.2 (not_le.1 h))

theorem isqrt_eq_sqrt (n : ℕ) : FVal.isqrt n = n.sqrt := by
  refine isqrtFrom_eq_sqrt (Nat.zero_le _) ?_
  rw [Nat.zero_add, Nat.sqrt_lt, ← pow_add]
  exact Nat.lt_log2_self.trans_le (Nat.pow_le_pow_right two_pos (by omega))

/-- The root of an integer between its neighbours. -/
theorem sqrt_cut (a : ℕ) :
    (FVal.isqrt a * FVal.isqrt a = a → √(a : ℝ) = FVal.isqrt a) ∧
      (¬ FVal.isqrt a * FVal.isqrt a = a → (FVal.isqrt a : ℝ) < √a ∧ √(a : ℝ) < FVal.isqrt a + 1) := by
  rw [isqrt_eq_sqrt]
  refine ⟨fun h => ?_, fun h => ⟨lt_of_le_of_ne Real.nat_sqrt_le_real_sqrt fun he => h ?_, Real.real_sqrt_lt_nat_sqrt_succ⟩⟩
  · rw [Real.sqrt_eq_iff_mul_self_eq (Nat.cast_nonneg _) (Nat.cast_nonneg _)]
    exact_mod_cast h.symm
  · have hsq := Real.mul_self_sqrt (Nat.cast_nonneg (α := ℝ) a)
    rw [← he] at hsq
    exact_mod_cast hsq

/-- The significand of a root under an even exponent. -/
def evenSig (m : ℕ) (e : ℤ) : ℕ := if e % 2 = 0 then m else 2 * m

theorem evenSig_mul (m : ℕ) (e : ℤ) : (evenSig m e : ℝ) * (2 ^ (e / 2)) ^ 2 = m * 2 ^ e := by
  rw [← zpow_natCast, ← zpow_mul, evenSig]
  split
  case isTrue h => rw [show e / 2 * (2 : ℕ) = e by omega]
  case isFalse h =>
    rw [show (e : ℤ) = e / 2 * (2 : ℕ) + 1 by omega, zpow_add_one₀ two_ne_zero]
    rw [show (e / 2 * (2 : ℕ) + 1) / 2 = e / 2 by omega]
    push_cast
    ring

theorem sqrt_fin (p : ℕ) {m : ℕ} (hm : m ≠ 0) (e : ℤ) :
    (FVal.fin false m e).sqrt p =
      .fin false (2 * FVal.isqrt (evenSig m e * 4 ^ p) +
        if FVal.isqrt (evenSig m e * 4 ^ p) * FVal.isqrt (evenSig m e * 4 ^ p) = evenSig m e * 4 ^ p then 0 else 1)
        (e / 2 - p - 1) := by
  rw [FVal.sqrt, if_neg hm]
  rfl

/-- The square root of a positive number, rounded once. -/
theorem sqrt_roundsTo (f : Fmt) (mode : RMode) {m : ℕ} (hm : m ≠ 0) (e : ℤ) :
    RoundsTo f mode √(m * 2 ^ e) (roundVal f mode ((FVal.fin false m e).sqrt (f.mbits + 2))) := by
  obtain ⟨heq, hcut⟩ := sqrt_cut (evenSig m e * 4 ^ (f.mbits + 2))
  have hd : 2 ^ (f.mbits + 2) ≤ FVal.isqrt (evenSig m e * 4 ^ (f.mbits + 2)) := by
    have hpos : 0 < evenSig m e := by rw [evenSig]; split <;> omega
    rw [isqrt_eq_sqrt, Nat.le_sqrt, ← mul_pow]
    exact Nat.le_mul_of_pos_left _ hpos
  have hround := roundsTo_of_cut hd heq hcut mode false (e / 2 - (f.mbits + 2 : ℕ) - 1)
  have hvalue : √((evenSig m e * 4 ^ (f.mbits + 2) : ℕ) : ℝ) * 2 ^ (e / 2 - (f.mbits + 2 : ℕ) - 1 + 1) = √(m * 2 ^ e) := by
    have hpow : ((4 ^ (f.mbits + 2) : ℕ) : ℝ) = (2 ^ (f.mbits + 2)) ^ 2 := by
      rw [← pow_mul, mul_comm, pow_mul]; norm_num
    rw [← evenSig_mul, sub_add_cancel, Nat.cast_mul, hpow, zpow_sub₀ two_ne_zero, zpow_natCast,
      Real.sqrt_mul (Nat.cast_nonneg _), Real.sqrt_mul (Nat.cast_nonneg _), Real.sqrt_sq (by positivity),
      Real.sqrt_sq (by positivity)]
    field_simp
  rw [hvalue] at hround
  rw [sqrt_fin _ hm]
  exact hround

end

/-! ### The obligation -/

section

variable {f : Fmt} {mode : RMode} {a b : Word} {x y : ℚ}

theorem eq_zero_iff_of_signedReal {sign : Bool} {m : ℕ} {e : ℤ} (h : (x : ℝ) = signedReal sign (m * 2 ^ e)) :
    x = 0 ↔ m = 0 := by
  have hpow : (2 : ℝ) ^ e ≠ 0 := by positivity
  rw [← Rat.cast_eq_zero (α := ℝ), h]
  cases sign <;> simp [signedReal, hpow]

/-- A quotient by a number that is not zero, rounded once. -/
theorem fpDiv_spec (ha : f.num a = some x) (hb : f.num b = some y) (hy : y ≠ 0) :
    RoundsTo f mode (x / y : ℚ) (fpDiv f mode a b) ∧
      (x = 0 → f.sign (fpDiv f mode a b).1 = (f.sign a ^^ f.sign b)) := by
  obtain ⟨m, e, hva, hx⟩ := Fmt.num_eq_some ha
  obtain ⟨n, k, hvb, hy'⟩ := Fmt.num_eq_some hb
  have hn : n ≠ 0 := mt (eq_zero_iff_of_signedReal hy').2 hy
  have hdiv : fpDiv f mode a b = roundVal f mode (FVal.divFin (f.mbits + 2) (f.sign a ^^ f.sign b) m e n k) :=
    fpDiv_of_div (by rw [hva, hvb]; exact if_neg hn)
  rw [hdiv]
  obtain rfl | hm := eq_or_ne m 0
  · obtain ⟨e', he'⟩ := divFin_zero (f.mbits + 2) (f.sign a ^^ f.sign b) e n k
    rw [he', (eq_zero_iff_of_signedReal hx).2 rfl, zero_div, Rat.cast_zero]
    exact ⟨roundsTo_zero f mode _, fun _ => (num_zero f _).2⟩
  · have hround := divFin_roundsTo f mode (f.sign a ^^ f.sign b) hm (Nat.pos_of_ne_zero hn) e k
    rw [← signedReal_div_signedReal, ← hx, ← hy'] at hround
    exact ⟨by push_cast; exact hround, fun hx0 => absurd ((eq_zero_iff_of_signedReal hx).1 hx0) hm⟩

/-- The square root of a number that is not negative, rounded once. -/
theorem fpSqrt_spec (ha : f.num a = some x) (hx : 0 ≤ x) :
    RoundsTo f mode (√x) (fpSqrt f mode a) ∧ (x = 0 → f.sign (fpSqrt f mode a).1 = f.sign a) := by
  obtain ⟨m, e, hva, hx'⟩ := Fmt.num_eq_some ha
  have hzero := eq_zero_iff_of_signedReal hx'
  rw [fpSqrt, hva]
  obtain rfl | hm := eq_or_ne m 0
  · rw [hzero.2 rfl, Rat.cast_zero, Real.sqrt_zero]
    exact ⟨roundsTo_zero f mode _, fun _ => (num_zero f _).2⟩
  · have hsign : f.sign a = false := by
      have hpos : (0 : ℝ) < m * 2 ^ e := by positivity
      rw [← Bool.not_eq_true, ← signedReal_neg_iff hpos, ← hx', not_lt]
      exact_mod_cast hx
    rw [hsign] at hx' ⊢
    rw [hx']
    exact ⟨sqrt_roundsTo f mode hm e, fun hx0 => absurd (hzero.1 hx0) hm⟩

end

/-- Settles O56: quotients and roots are cut off with bits to spare, and so rounded as the exact values are. -/
theorem quotientsAndRootsAreRoundedOnce : Obligations.QuotientsAndRootsAreRoundedOnce := by
  unfold Obligations.QuotientsAndRootsAreRoundedOnce
  exact fun f mode a b x y ha hb => ⟨fpDiv_spec ha hb, fpSqrt_spec ha⟩

end Sys2Proof.Machine
end

section
/-! The compressed integer computational instructions (45_c.md R490 to R527): each writes, two bytes on, the number its
expansion writes. -/

namespace Sys2Proof

/-! ### Immediates -/

theorem imm6_getLsbD (i : BitVec 6) {k : Nat} (h : k < 64) : (imm6 i).getLsbD k = i.getLsbD (min k 5) := by
  rw [imm6, BitVec.getLsbD_signExtend, BitVec.msb_eq_getLsbD_last, decide_eq_true h, Bool.true_and]
  split
  next hk => rw [Nat.min_eq_left (Nat.le_of_lt_succ hk)]
  next hk => rw [Nat.min_eq_right (Nat.le_of_succ_le (Nat.le_of_not_lt hk))]

theorem uimm4_eq {n : Nat} (i : BitVec n) : uimm4 i = BitVec.ofInt 64 (4 * i.toNat) := setWidth_shiftLeft_eq_ofInt i 2

namespace Machine

/-! ### The obligation -/

/-- Settles O12: each instruction is a `put` of two bytes, of the sum, the shift or the bitwise operation its expansion
writes, but for `c.nop`, which writes nothing. -/
theorem compressedInstructionsCompute : Obligations.CompressedInstructionsCompute := by
  unfold Obligations.CompressedInstructionsCompute
  intro s rd rs2 rd' rs2' imm shamt uimm
  refine ⟨put_computes rfl ?addi4spn, retire_continues 2 s, put_computes rfl ?addi, put_computes rfl (s.cfg.norm_ofInt _),
    put_computes rfl ?addi16sp, put_computes rfl ?lui, put_computes rfl (s.cfg.norm_srl _ _),
    put_computes rfl (s.cfg.norm_sra _ _), put_computesBits rfl fun k hk => ?andi, put_computes rfl ?sub,
    put_computesBits rfl fun k hk => ?xor, put_computesBits rfl fun k hk => ?or, put_computesBits rfl fun k hk => ?and,
    put_computes rfl (s.cfg.norm_shiftLeft _ _), put_computes rfl (s.cfg.word_toU _).symm, put_computes rfl ?add,
    fun hx => ?words⟩
  case addi4spn => rw [uimm4_eq]; exact s.cfg.norm_add (s.cfg.toU_modEq _) (s.cfg.toNat_ofInt_modEq _)
  case addi => exact s.cfg.norm_add (s.cfg.toS_modEq _) (s.cfg.toNat_ofInt_modEq _)
  case addi16sp => rw [imm16sp_eq]; exact s.cfg.norm_add (s.cfg.toS_modEq _) (s.cfg.toNat_ofInt_modEq _)
  case lui => rw [immCLui_eq, Config.norm_ofInt]
  case andi => rw [BitVec.getLsbD_and, imm6_getLsbD imm (hk.trans_le s.cfg.xlen_le), State.xbit_of_lt _ hk]
  case sub => exact s.cfg.norm_sub (s.cfg.toS_modEq _) (s.cfg.toS_modEq _)
  case xor => rw [BitVec.getLsbD_xor, State.xbit_of_lt _ hk, State.xbit_of_lt _ hk]
  case or => rw [BitVec.getLsbD_or, State.xbit_of_lt _ hk, State.xbit_of_lt _ hk]
  case and => rw [BitVec.getLsbD_and, State.xbit_of_lt _ hk, State.xbit_of_lt _ hk]
  case add => exact s.cfg.norm_add (s.cfg.toS_modEq _) (s.cfg.toS_modEq _)
  case words =>
    simp only [State.xu_rv64 hx]
    refine ⟨put_computes_rv64 hx rfl (sext32_add_ofInt _ _), put_computes_rv64 hx rfl ?subw, put_computes_rv64 hx rfl ?addw⟩
    case subw => rw [← sext32_sub_ofInt, ← Config.eq_ofInt]
    case addw => rw [← sext32_add_ofInt, ← Config.eq_ofInt]

end Machine

end Sys2Proof
end

section
/-! Address generation (46_b.md R553 to R560), conditional zeros (49_zicond.md R711, R712) and the logic, comparisons and
extensions of Zbb (46_b.md R561 to R563, R570 to R576): sums, choices and low parts, as numbers modulo 2^XLEN. -/

namespace Sys2Proof

namespace Config

section

variable (c : Config) (v w : Word)

/-! ### Shifted and zero-extended indices -/

theorem shiftLeft_modEq {i : Int} (hv : (v.toNat : Int) ≡ i [ZMOD 2 ^ c.xlen.bits]) (n : Nat) :
    ((v <<< n).toNat : Int) ≡ i * 2 ^ n [ZMOD 2 ^ c.xlen.bits] := by
  rw [BitVec.toNat_shiftLeft, Nat.shiftLeft_eq]
  push_cast
  exact (c.modEq_xlen (Int.mod_modEq _ _)).trans (hv.mul_right _)

/-- The low bits of a value are those of its number: no part of them is above XLEN. -/
theorem toNat_mod_eq_toU_mod {n : Nat} (hn : n ≤ 32) : w.toNat % 2 ^ n = c.toU w % 2 ^ n := by
  rw [toU_eq, Nat.mod_mod_of_dvd _ (Nat.pow_dvd_pow 2 (hn.trans (by cases c.xlen <;> decide)))]

theorem toNat_zext32_modEq : ((zext32 w).toNat : Int) ≡ c.toU w % 2 ^ 32 [ZMOD 2 ^ c.xlen.bits] := by
  rw [zext32, BitVec.toNat_setWidth_of_le (by decide), BitVec.toNat_setWidth, c.toNat_mod_eq_toU_mod w le_rfl]
  push_cast
  rfl

/-! ### Choices -/

section

variable {c} {v w} {f : Word → Int} (hf : ∀ u, c.word (f u) = c.norm u) {b : Bool} (hb : b = decide (f v < f w))
include hf hb

/-- The choice of the greater of two values, by whichever number, signed or unsigned, names a value. -/
theorem norm_ite_eq_word_max : c.norm (if b then w else v) = c.word (max (f v) (f w)) := by
  simp only [hb, decide_eq_true_eq, apply_ite c.norm, max_def_lt, apply_ite c.word, hf]

theorem norm_ite_eq_word_min : c.norm (if b then v else w) = c.word (min (f v) (f w)) := by
  simp only [hb, decide_eq_true_eq, apply_ite c.norm, min_def_lt, apply_ite c.word, hf]

end

theorem ltU_eq_cast : c.ltU v w = decide ((c.toU v : Int) < c.toU w) := by rw [ltU_eq]; simp only [Int.ofNat_lt]

/-- A value of XLEN bits is zero when its number is. -/
theorem toU_eq_zero_iff {w : Word} (hw : c.norm w = w) : c.toU w = 0 ↔ w = 0 := by
  rw [toU, hw, ← BitVec.toNat_inj]
  rfl

/-! ### Bits and low parts -/

theorem getLsbD_not_of_lt {k : Nat} (hk : k < c.xlen.bits) : (~~~w).getLsbD k = !w.getLsbD k := by
  rw [BitVec.getLsbD_not, decide_eq_true (hk.trans_le c.xlen_le), Bool.true_and]

theorem norm_signExtend_low {n : Nat} (hn : n ≤ 32) :
    c.norm ((w.setWidth n).signExtend 64) = c.word ((c.toU w : Int).bmod (2 ^ n)) := by
  rw [c.norm_signExtend_setWidth w (hn.trans (by decide)), ← Int.emod_bmod (x := c.toU w), ← Int.natCast_emod,
    ← c.toNat_mod_eq_toU_mod w hn, Int.natCast_emod, Int.emod_bmod]

theorem norm_zext16 : c.norm (zext16 w) = c.word (c.toU w % 2 ^ 16) := by
  rw [zext16, norm_eq_word, BitVec.toNat_setWidth_of_le (by decide), BitVec.toNat_setWidth,
    c.toNat_mod_eq_toU_mod w (by decide)]
  push_cast
  rfl

end

end Config

namespace Machine

/-! ### The obligations -/

/-- Settles O5: an address is a `put` of a sum, whose terms count modulo 2^XLEN; a conditional zero is a `put` of a
choice, for which a source of XLEN bits is zero when its number is. -/
theorem addressGenerationAndConditionalZerosCompute : Obligations.AddressGenerationAndConditionalZerosCompute := by
  unfold Obligations.AddressGenerationAndConditionalZerosCompute
  refine ⟨fun s rd rs1 rs2 shamt => ?addresses, fun s rd rs1 rs2 hnorm => ?zeros⟩
  case addresses =>
    have hbase := s.cfg.toU_modEq (s.rx rs2)
    have hindex := s.cfg.toU_modEq (s.rx rs1)
    have hlow := s.cfg.toNat_zext32_modEq (s.rx rs1)
    exact ⟨put_computes rfl (s.cfg.norm_add hbase (s.cfg.shiftLeft_modEq _ hindex 1)),
      put_computes rfl (s.cfg.norm_add hbase (s.cfg.shiftLeft_modEq _ hindex 2)),
      put_computes rfl (s.cfg.norm_add hbase (s.cfg.shiftLeft_modEq _ hindex 3)),
      fun _ => ⟨put_computes rfl (s.cfg.norm_add hbase hlow),
        put_computes rfl (s.cfg.norm_add hbase (s.cfg.shiftLeft_modEq _ hlow 1)),
        put_computes rfl (s.cfg.norm_add hbase (s.cfg.shiftLeft_modEq _ hlow 2)),
        put_computes rfl (s.cfg.norm_add hbase (s.cfg.shiftLeft_modEq _ hlow 3)),
        put_computes rfl (s.cfg.norm_of_toNat (s.cfg.shiftLeft_modEq _ hlow _))⟩⟩
  case zeros =>
    have hzero : s.xu rs2 = 0 ↔ s.rx rs2 = 0 := s.cfg.toU_eq_zero_iff hnorm
    have hsource : s.cfg.norm (s.rx rs1) = s.cfg.word (s.xu rs1) := (s.cfg.word_toU _).symm
    have hnorm0 : s.cfg.norm 0 = 0 := s.cfg.norm_of_lt (by decide)
    refine ⟨put_computes rfl ?eqz, put_computes rfl ?nez⟩
    case eqz => simp only [hzero, apply_ite s.cfg.norm, hnorm0, hsource]
    case nez => simp only [hzero, apply_ite s.cfg.norm, hnorm0, hsource, ne_eq, ite_not]

/-- Settles O6: each instruction is a `put`, of a bitwise operation, of one of the sources or of the low bits of one. -/
theorem logicMinMaxAndExtensionCompute : Obligations.LogicMinMaxAndExtensionCompute := by
  unfold Obligations.LogicMinMaxAndExtensionCompute
  intro s rd rs1 rs2
  refine ⟨put_computesBits rfl fun k hk => ?andn, put_computesBits rfl fun k hk => ?orn,
    put_computesBits rfl fun k hk => ?xnor,
    put_computes rfl (Config.norm_ite_eq_word_max s.cfg.word_toS (s.cfg.ltS_eq _ _)),
    put_computes rfl (Config.norm_ite_eq_word_max s.cfg.word_toU (s.cfg.ltU_eq_cast _ _)),
    put_computes rfl (Config.norm_ite_eq_word_min s.cfg.word_toS (s.cfg.ltS_eq _ _)),
    put_computes rfl (Config.norm_ite_eq_word_min s.cfg.word_toU (s.cfg.ltU_eq_cast _ _)),
    put_computes rfl (s.cfg.norm_signExtend_low _ (by decide)),
    put_computes rfl (s.cfg.norm_signExtend_low _ (by decide)), put_computes rfl (s.cfg.norm_zext16 _),
    put_computes rfl (s.cfg.norm_zext16 _)⟩
  case andn => rw [BitVec.getLsbD_and, s.cfg.getLsbD_not_of_lt _ hk, State.xbit_of_lt _ hk, State.xbit_of_lt _ hk]
  case orn => rw [BitVec.getLsbD_or, s.cfg.getLsbD_not_of_lt _ hk, State.xbit_of_lt _ hk, State.xbit_of_lt _ hk]
  case xnor =>
    rw [s.cfg.getLsbD_not_of_lt _ hk, BitVec.getLsbD_xor, State.xbit_of_lt rs1 hk, State.xbit_of_lt rs2 hk]
    exact Bool.not_not _

end Machine

end Sys2Proof
end

section
/-! The counts of Zbb (46_b.md R564 to R569): what `clz`, `ctz` and `popcount` say of the bits of a word. -/

namespace Sys2Proof

section

variable (w : Word)

/-! ### Leading zeros -/

theorem clz_of_getLsbD {w : Word} {n : Nat} (h : w.getLsbD n = true) : clz w (n + 1) = 0 := if_pos h

theorem clz_of_not_getLsbD {w : Word} {n : Nat} (h : w.getLsbD n = false) : clz w (n + 1) = clz w n + 1 :=
  if_neg (Bool.not_eq_true _ ▸ h)

theorem clz_le (n : Nat) : clz w n ≤ n := by
  induction n with
  | zero => exact le_rfl
  | succ n ih =>
    cases h : w.getLsbD n with
    | true => rw [clz_of_getLsbD h]; exact Nat.zero_le _
    | false => rw [clz_of_not_getLsbD h]; exact Nat.succ_le_succ ih

theorem getLsbD_of_sub_clz_le {n k : Nat} (hle : n - clz w n ≤ k) (hlt : k < n) : w.getLsbD k = false := by
  induction n with
  | zero => exact absurd hlt (Nat.not_lt_zero k)
  | succ n ih =>
    cases h : w.getLsbD n with
    | true => rw [clz_of_getLsbD h] at hle; omega
    | false =>
      rw [clz_of_not_getLsbD h] at hle
      obtain rfl | hkn := Nat.eq_or_lt_of_le (Nat.le_of_lt_succ hlt)
      · exact h
      · exact ih (by omega) hkn

theorem getLsbD_sub_clz {n : Nat} (hlt : clz w n < n) : w.getLsbD (n - 1 - clz w n) = true := by
  induction n with
  | zero => exact absurd hlt (Nat.not_lt_zero _)
  | succ n ih =>
    cases h : w.getLsbD n with
    | true => rw [clz_of_getLsbD h]; exact h
    | false =>
      rw [clz_of_not_getLsbD h] at hlt ⊢
      rw [show n + 1 - 1 - (clz w n + 1) = n - 1 - clz w n by omega]
      exact ih (Nat.lt_of_succ_lt_succ hlt)

/-! ### Trailing zeros -/

theorem ctz_of_getLsbD {w : Word} (h : w.getLsbD 0 = true) (n : Nat) : ctz w (n + 1) = 0 := if_pos h

theorem ctz_of_not_getLsbD {w : Word} (h : w.getLsbD 0 = false) (n : Nat) : ctz w (n + 1) = ctz (w >>> 1) n + 1 :=
  if_neg (Bool.not_eq_true _ ▸ h)

theorem ctz_le (n : Nat) : ctz w n ≤ n := by
  induction n generalizing w with
  | zero => exact le_rfl
  | succ n ih =>
    cases h : w.getLsbD 0 with
    | true => rw [ctz_of_getLsbD h]; exact Nat.zero_le _
    | false => rw [ctz_of_not_getLsbD h]; exact Nat.succ_le_succ (ih _)

theorem getLsbD_of_lt_ctz {n k : Nat} (hlt : k < ctz w n) : w.getLsbD k = false := by
  induction n generalizing w k with
  | zero => exact absurd hlt (Nat.not_lt_zero k)
  | succ n ih =>
    cases h : w.getLsbD 0 with
    | true => rw [ctz_of_getLsbD h] at hlt; exact absurd hlt (Nat.not_lt_zero k)
    | false =>
      rw [ctz_of_not_getLsbD h] at hlt
      cases k with
      | zero => exact h
      | succ k =>
        rw [Nat.add_comm, ← BitVec.getLsbD_ushiftRight]
        exact ih _ (Nat.lt_of_succ_lt_succ hlt)

theorem getLsbD_ctz {n : Nat} (hlt : ctz w n < n) : w.getLsbD (ctz w n) = true := by
  induction n generalizing w with
  | zero => exact absurd hlt (Nat.not_lt_zero _)
  | succ n ih =>
    cases h : w.getLsbD 0 with
    | true => rw [ctz_of_getLsbD h]; exact h
    | false =>
      rw [ctz_of_not_getLsbD h] at hlt ⊢
      rw [Nat.add_comm, ← BitVec.getLsbD_ushiftRight]
      exact ih _ (Nat.lt_of_succ_lt_succ hlt)

/-! ### Set bits -/

theorem popcount_eq_countP (n : Nat) : popcount w n = (List.range n).countP w.getLsbD := by
  induction n with
  | zero => rfl
  | succ n ih =>
    rw [popcount, ih, List.range_succ, List.countP_append, List.countP_singleton]
    cases w.getLsbD n <;> rfl

end

namespace Machine

section

variable {s : State} {l : Nat} (r : Reg) (hl : l ≤ s.cfg.xlen.bits)
include hl

/-! ### The bits of a register -/

theorem leadingZeros_clz : LeadingZeros s r l (clz (s.rx r) l) := by
  refine ⟨clz_le _ l, fun k hle hlt => ?zeros, fun hlt => ?one⟩
  case zeros => rw [State.xbit_of_lt r (hlt.trans_le hl)]; exact getLsbD_of_sub_clz_le _ hle hlt
  case one => rw [State.xbit_of_lt r (by omega)]; exact getLsbD_sub_clz _ hlt

theorem trailingZeros_ctz : TrailingZeros s r l (ctz (s.rx r) l) := by
  have hle := ctz_le (s.rx r) l
  refine ⟨hle, fun k hlt => ?zeros, fun hlt => ?one⟩
  case zeros => rw [State.xbit_of_lt r (by omega)]; exact getLsbD_of_lt_ctz _ hlt
  case one => rw [State.xbit_of_lt r (hlt.trans_le hl)]; exact getLsbD_ctz _ hlt

theorem popcount_rx : popcount (s.rx r) l = (List.range l).countP (s.xbit r) := by
  rw [popcount_eq_countP]
  refine List.countP_congr fun k hk => ?_
  rw [State.xbit_of_lt r ((List.mem_range.1 hk).trans_le hl)]

end

/-! ### The obligation -/

/-- Settles O7: each instruction is a `put` of a count over the low XLEN or the low 32 bits, which are bits of the
register. -/
theorem bitCountsCompute : Obligations.BitCountsCompute := by
  unfold Obligations.BitCountsCompute
  intro s rd rs1
  have hword : 32 ≤ s.cfg.xlen.bits := by cases s.cfg.xlen <;> decide
  refine ⟨⟨_, leadingZeros_clz rs1 le_rfl, put_computes rfl (s.cfg.norm_ofNat _)⟩,
    ⟨_, trailingZeros_ctz rs1 le_rfl, put_computes rfl (s.cfg.norm_ofNat _)⟩, put_computes rfl ?cpop,
    ⟨_, leadingZeros_clz rs1 hword, put_computes rfl (s.cfg.norm_ofNat _)⟩,
    ⟨_, trailingZeros_ctz rs1 hword, put_computes rfl (s.cfg.norm_ofNat _)⟩, put_computes rfl ?cpopw⟩
  case cpop => rw [Config.norm_ofNat, popcount_rx rs1 le_rfl]; rfl
  case cpopw => rw [Config.norm_ofNat, popcount_rx rs1 hword]

end Machine

end Sys2Proof
end

section
/-! The rotations and byte operations of Zbb (46_b.md R577 to R584), bit by bit. -/

namespace Sys2Proof

section

variable (w : Word) (n : Nat) {k : Nat}

/-! ### Rotations -/

theorem getLsbD_rotateLeft_of_lt {m : Nat} (x : BitVec m) (hk : k < m) :
    (x.rotateLeft n).getLsbD k = x.getLsbD ((k + m - n % m) % m) := by
  have hr : n % m < m := Nat.mod_lt _ (Nat.zero_lt_of_lt hk)
  rw [BitVec.getLsbD_rotateLeft]
  generalize n % m = r at hr
  by_cases h : k < r
  · rw [decide_eq_true h, cond_true, Nat.mod_eq_of_lt (by omega : k + m - r < m), show m - r + k = k + m - r by omega]
  · rw [decide_eq_false h, cond_false, decide_eq_true hk, Bool.true_and, show k + m - r = k - r + m by omega,
      Nat.add_mod_right, Nat.mod_eq_of_lt (by omega)]

theorem getLsbD_rotateRight_of_lt {m : Nat} (x : BitVec m) (hk : k < m) :
    (x.rotateRight n).getLsbD k = x.getLsbD ((k + n) % m) := by
  have hr : n % m < m := Nat.mod_lt _ (Nat.zero_lt_of_lt hk)
  rw [BitVec.getLsbD_rotateRight, ← Nat.add_mod_mod]
  generalize n % m = r at hr
  by_cases h : k < m - r
  · rw [decide_eq_true h, cond_true, Nat.mod_eq_of_lt (by omega : k + r < m), Nat.add_comm]
  · rw [decide_eq_false h, cond_false, decide_eq_true hk, Bool.true_and, show k + r = k - (m - r) + m by omega,
      Nat.add_mod_right, Nat.mod_eq_of_lt (by omega)]

/-- Below `m`, the low `m` bits of a word are those of the word. -/
theorem getLsbD_setWidth_of_lt {m : Nat} (hk : k < m) : (w.setWidth m).getLsbD k = w.getLsbD k := by
  rw [BitVec.getLsbD_setWidth, decide_eq_true hk, Bool.true_and]

/-- Widening adds no bits. -/
theorem getLsbD_setWidth_of_le {l m : Nat} (v : BitVec l) (h : l ≤ m) (k : Nat) :
    (v.setWidth m).getLsbD k = v.getLsbD k := congrArg (Nat.testBit · k) (BitVec.toNat_setWidth_of_le h)

theorem getLsbD_rotateLeft32 (hk : k < 32) :
    ((w.setWidth 32).rotateLeft n).getLsbD k = w.getLsbD ((k + 32 - n % 32) % 32) := by
  rw [getLsbD_rotateLeft_of_lt n _ hk, getLsbD_setWidth_of_lt w (Nat.mod_lt _ (by decide))]

theorem getLsbD_rotateRight32 (hk : k < 32) :
    ((w.setWidth 32).rotateRight n).getLsbD k = w.getLsbD ((k + n) % 32) := by
  rw [getLsbD_rotateRight_of_lt n _ hk, getLsbD_setWidth_of_lt w (Nat.mod_lt _ (by decide))]

/-- The copies of bit 31 are the bits above it. -/
theorem getLsbD_signExtend32 (v : BitVec 32) (hk : k < 64) : (v.signExtend 64).getLsbD k = v.getLsbD (min k 31) := by
  rw [BitVec.getLsbD_signExtend, BitVec.msb_eq_getLsbD_last, decide_eq_true hk, Bool.true_and]
  split
  next h => rw [Nat.min_eq_left (Nat.le_of_lt_succ h)]
  next h => rw [Nat.min_eq_right (Nat.le_of_succ_le (Nat.le_of_not_lt h))]

theorem Config.getLsbD_rotl (c : Config) (hk : k < c.xlen.bits) :
    (c.rotl w n).getLsbD k = w.getLsbD ((k + c.xlen.bits - n % c.xlen.bits) % c.xlen.bits) := by
  unfold rotl
  generalize c.xlen = x at hk
  cases x with
  | rv32 => exact (getLsbD_setWidth_of_le _ (by decide) k).trans (getLsbD_rotateLeft32 w n hk)
  | rv64 => exact getLsbD_rotateLeft_of_lt n w hk

theorem Config.getLsbD_rotr (c : Config) (hk : k < c.xlen.bits) :
    (c.rotr w n).getLsbD k = w.getLsbD ((k + n) % c.xlen.bits) := by
  unfold rotr
  generalize c.xlen = x at hk
  cases x with
  | rv32 => exact (getLsbD_setWidth_of_le _ (by decide) k).trans (getLsbD_rotateRight32 w n hk)
  | rv64 => exact getLsbD_rotateRight_of_lt n w hk

theorem Config.xlen_pos (c : Config) : 0 < c.xlen.bits := by cases c.xlen <;> decide

/-! ### Bytes -/

theorem setWidth8_eq_zero_iff : w.setWidth 8 = 0#8 ↔ ∀ j < 8, w.getLsbD j = false := by
  constructor
  · intro h j hj
    rw [← getLsbD_setWidth_of_lt w hj, h, BitVec.getLsbD_zero]
  · intro h
    refine BitVec.eq_of_getLsbD_eq fun j hj => ?_
    rw [getLsbD_setWidth_of_lt w hj, h j hj, BitVec.getLsbD_zero]

/-- The lowest byte of `orc.b`: all ones when one of its bits is set. -/
theorem getLsbD_orByte :
    (if w.setWidth 8 = 0#8 then 0 else 0xFF : Word).getLsbD k = (decide (k < 8) && (List.range 8).any w.getLsbD) := by
  have hones : (0xFF : Word).getLsbD k = decide (k < 8) :=
    (getLsbD_setWidth_of_le (BitVec.allOnes 8) (m := 64) (by decide) k).trans BitVec.getLsbD_allOnes
  have hany : (List.range 8).any w.getLsbD = !decide (w.setWidth 8 = 0#8) := by
    rw [Bool.eq_iff_iff, List.any_eq_true, Bool.not_eq_true', decide_eq_false_iff_not, setWidth8_eq_zero_iff]
    simp
  rw [hany]
  split
  next hz => rw [decide_eq_true hz, Bool.not_true, Bool.and_false]; exact BitVec.getLsbD_zero
  next hz => rw [decide_eq_false hz, Bool.not_false, Bool.and_true, hones]

theorem getLsbD_orcB (hk : k < 64) (hkn : k < 8 * n) :
    (orcB w n).getLsbD k = (List.range 8).any fun j => w.getLsbD (k / 8 * 8 + j) := by
  induction n generalizing w k with
  | zero => exact absurd hkn (Nat.not_lt_zero k)
  | succ n ih =>
    rw [orcB, BitVec.getLsbD_or, BitVec.getLsbD_shiftLeft, getLsbD_orByte, decide_eq_true hk]
    by_cases h8 : k < 8
    · simp [h8, Nat.div_eq_of_lt h8]
    · have hindex (j : Nat) : 8 + ((k - 8) / 8 * 8 + j) = k / 8 * 8 + j := by omega
      simp [h8, ih (w >>> 8) (k := k - 8) (by omega) (by omega), hindex]

/-- The byte that `rev8` moves to the top. -/
theorem getLsbD_zext8_shiftLeft (hk : k < 64) :
    (zext8 w <<< (8 * n)).getLsbD k = (decide (8 * n ≤ k ∧ k < 8 * (n + 1)) && w.getLsbD (k - 8 * n)) := by
  have hbyte : (zext8 w).getLsbD (k - 8 * n) = (decide (k - 8 * n < 8) && w.getLsbD (k - 8 * n)) := by
    rw [zext8, getLsbD_setWidth_of_le _ (by decide), BitVec.getLsbD_setWidth]
  rw [BitVec.getLsbD_shiftLeft, hbyte, ← Bool.and_assoc, decide_eq_true hk, Bool.true_and, ← decide_not,
    ← Bool.decide_and]
  congr 2
  exact propext (by omega)

theorem getLsbD_rev8 (hk : k < 64) :
    (rev8 w n).getLsbD k = (decide (k < 8 * n) && w.getLsbD ((n - 1 - k / 8) * 8 + k % 8)) := by
  induction n generalizing w with
  | zero => exact BitVec.getLsbD_zero
  | succ n ih =>
    rw [rev8, BitVec.getLsbD_or, ih, BitVec.getLsbD_ushiftRight, getLsbD_zext8_shiftLeft w n hk]
    obtain hlow | htop | hhigh : k < 8 * n ∨ (8 * n ≤ k ∧ k < 8 * (n + 1)) ∨ 8 * (n + 1) ≤ k := by omega
    · have hindex : 8 + ((n - 1 - k / 8) * 8 + k % 8) = (n + 1 - 1 - k / 8) * 8 + k % 8 := by omega
      simp only [hindex, hlow, show ¬ 8 * n ≤ k by omega, show k < 8 * (n + 1) by omega]
      simp
    · have hindex : k - 8 * n = (n + 1 - 1 - k / 8) * 8 + k % 8 := by omega
      simp only [hindex, htop, show ¬ k < 8 * n by omega]
      simp
    · simp only [show ¬ k < 8 * n by omega, show ¬ k < 8 * (n + 1) by omega]
      simp

end

namespace Machine

/-! ### The obligation -/

/-- Settles O8: each instruction is a `put` of a word whose bits are bits of the register at places below XLEN. -/
theorem rotationsAndByteOperationsCompute : Obligations.RotationsAndByteOperationsCompute := by
  unfold Obligations.RotationsAndByteOperationsCompute
  intro s rd rs1 rs2 shamt shamt5
  have hbits (n : Nat) : s.xbit rs1 (n % s.xlen) = (s.rx rs1).getLsbD (n % s.cfg.xlen.bits) :=
    State.xbit_of_lt rs1 (Nat.mod_lt n s.cfg.xlen_pos)
  have hbits32 (n : Nat) : s.xbit rs1 (n % 32) = (s.rx rs1).getLsbD (n % 32) :=
    State.xbit_of_lt rs1 ((Nat.mod_lt n (by decide)).trans_le (by cases s.cfg.xlen <;> decide))
  have hamount : s.cfg.shiftAmount (s.rx rs2) = s.xu rs2 % s.xlen := s.cfg.shiftAmount_eq _
  have hamount32 : ((s.rx rs2).setWidth 5).toNat = s.xu rs2 % 32 :=
    (BitVec.toNat_setWidth _ _).trans (s.cfg.toNat_mod_eq_toU_mod _ (n := 5) (by decide))
  refine ⟨put_computesBits rfl fun k hk => ?rol, put_computesBits rfl fun k hk => ?ror,
    put_computesBits rfl fun k hk => ?rori, put_computesBits rfl fun k hk => ?orc_b,
    fun hx => put_computesBits rfl fun k hk => ?rev8_rv32, fun hx => ⟨put_computesBits rfl fun k hk => ?rev8_rv64,
      put_computesBits rfl fun k hk => ?rolw, put_computesBits rfl fun k hk => ?rorw,
      put_computesBits rfl fun k hk => ?roriw⟩⟩
  case rol => rw [hbits, s.cfg.getLsbD_rotl _ _ hk, hamount]; exact congrArg _ (by rw [State.xlen, Nat.mod_mod])
  case ror => rw [hbits, s.cfg.getLsbD_rotr _ _ hk, hamount]; exact congrArg _ (Nat.add_mod_mod _ _ _)
  case rori => rw [hbits, s.cfg.getLsbD_rotr _ _ hk]
  case orc_b =>
    have hbytes : s.cfg.xlen.bits = 8 * s.cfg.xlen.bytes := by cases s.cfg.xlen <;> rfl
    rw [getLsbD_orcB _ _ (hk.trans_le s.cfg.xlen_le) (hbytes ▸ hk)]
    rw [Bool.eq_iff_iff, List.any_eq_true, List.any_eq_true]
    refine exists_congr fun j => and_congr_right fun hj => ?_
    have hj := List.mem_range.1 hj
    rw [State.xbit_of_lt rs1 (by omega)]
  case rev8_rv32 =>
    rw [hx, Xlen.bits] at hk
    rw [getLsbD_rev8 _ _ (by omega), decide_eq_true hk, Bool.true_and,
      State.xbit_of_lt rs1 (by rw [hx, Xlen.bits]; omega)]
  case rev8_rv64 =>
    rw [hx, Xlen.bits] at hk
    rw [getLsbD_rev8 _ _ hk, decide_eq_true hk, Bool.true_and,
      State.xbit_of_lt rs1 (by rw [hx, Xlen.bits]; omega)]
  case rolw =>
    rw [hbits32, getLsbD_signExtend32 _ (hk.trans_le s.cfg.xlen_le), getLsbD_rotateLeft32 _ _ (by omega), hamount32,
      Nat.mod_mod]
  case rorw =>
    rw [hbits32, getLsbD_signExtend32 _ (hk.trans_le s.cfg.xlen_le), getLsbD_rotateRight32 _ _ (by omega), hamount32,
      Nat.add_mod_mod]
  case roriw =>
    rw [hbits32, getLsbD_signExtend32 _ (hk.trans_le s.cfg.xlen_le), getLsbD_rotateRight32 _ _ (by omega)]

end Machine

end Sys2Proof
end

section
/-! The carry-less products of Zbc (46_b.md R585 to R587) and the single-bit operations of Zbs (R588 to R595), bit by
bit. -/

namespace Sys2Proof

/-! ### The carry-less product -/

theorem parity_add_ite (m : Nat) (b : Bool) : ((m + if b then 1 else 0) % 2 == 1) = ((m % 2 == 1) ^^ b) := by
  cases b with
  | false => exact (Bool.xor_false _).symm
  | true => obtain h | h := Nat.mod_two_eq_zero_or_one m <;> simp [Nat.add_mod, h]

theorem testBit_clmulWide (a b n k : Nat) :
    (clmulWide a b n).testBit k =
      ((List.range n).countP (fun i => decide (i ≤ k) && b.testBit i && a.testBit (k - i)) % 2 == 1) := by
  induction n with
  | zero => exact Nat.zero_testBit k
  | succ n ih =>
    have hterm :
        (if b.testBit n then a <<< n else 0).testBit k = (decide (n ≤ k) && b.testBit n && a.testBit (k - n)) := by
      cases b.testBit n with
      | true => rw [if_pos rfl, Nat.testBit_shiftLeft, Bool.and_true]
      | false => rw [if_neg Bool.false_ne_true, Nat.zero_testBit, Bool.and_false, Bool.false_and]
    rw [clmulWide, Nat.testBit_xor, ih, hterm, List.range_succ, List.countP_append, List.countP_singleton,
      parity_add_ite]

/-! ### One bit -/

theorem getLsbD_one_shiftLeft (n : Nat) {k : Nat} (hk : k < 64) : (1#64 <<< n).getLsbD k = decide (k = n) :=
  (Machine.getLsbD_bitAt true n k).trans (by simp only [hk, and_true, Bool.and_true])

namespace Machine

section

variable {s : State} {i : Instr} {rd r rs2 : Reg} {n : Nat}

theorem clmulBit_eq (s : State) (r rs2 : Reg) (k : Nat) :
    clmulBit s r rs2 k = (clmulWide (s.xu r) (s.xu rs2) s.xlen).testBit k := (testBit_clmulWide _ _ _ _).symm

/-! ### Instructions that write one bit of a register, or read one -/

theorem clearBit_computes (he : exec i s = put 4 rd (s.rx r &&& ~~~(1#64 <<< n)) s) :
    ComputesBits i s 4 rd fun k => s.xbit r k && decide (k ≠ n) := by
  refine put_computesBits he fun k hk => ?_
  rw [BitVec.getLsbD_and, s.cfg.getLsbD_not_of_lt _ hk, getLsbD_one_shiftLeft n (hk.trans_le s.cfg.xlen_le),
    ← decide_not, State.xbit_of_lt r hk]

theorem readBit_computes (hn : n < s.xlen) (he : exec i s = put 4 rd (s.rx r >>> n &&& 1) s) :
    ComputesBits i s 4 rd fun k => decide (k = 0) && s.xbit r n := by
  refine put_computesBits he fun k _ => ?_
  have hone : (1 : Word).getLsbD k = decide (k = 0) := BitVec.getLsbD_one
  rw [BitVec.getLsbD_and, BitVec.getLsbD_ushiftRight, hone, State.xbit_of_lt r hn,
    Bool.and_comm]
  by_cases h : k = 0
  · rw [h, Nat.add_zero]
  · rw [decide_eq_false h, Bool.false_and, Bool.false_and]

theorem invertBit_computes (he : exec i s = put 4 rd (s.rx r ^^^ 1#64 <<< n) s) :
    ComputesBits i s 4 rd fun k => s.xbit r k ^^ decide (k = n) := by
  refine put_computesBits he fun k hk => ?_
  rw [BitVec.getLsbD_xor, getLsbD_one_shiftLeft n (hk.trans_le s.cfg.xlen_le), State.xbit_of_lt r hk]

theorem setBit_computes (he : exec i s = put 4 rd (s.rx r ||| 1#64 <<< n) s) :
    ComputesBits i s 4 rd fun k => s.xbit r k || decide (k = n) := by
  refine put_computesBits he fun k hk => ?_
  rw [BitVec.getLsbD_or, getLsbD_one_shiftLeft n (hk.trans_le s.cfg.xlen_le), State.xbit_of_lt r hk]

end

/-! ### The obligation -/

/-- Settles O9: a carry-less product is a `put` of a part of a number whose bits are the parities; the others are `put`s
with one bit changed, or of one bit. -/
theorem carrylessAndSingleBitOperationsCompute : Obligations.CarrylessAndSingleBitOperationsCompute := by
  unfold Obligations.CarrylessAndSingleBitOperationsCompute
  refine ⟨fun s rd rs1 rs2 => ?products, fun s rd rs1 rs2 shamt => ?bits⟩
  case products =>
    have hofNat (m : Nat) {k : Nat} (hk : k < s.cfg.xlen.bits) : (BitVec.ofNat 64 m).getLsbD k = m.testBit k := by
      rw [BitVec.getLsbD_ofNat, decide_eq_true (hk.trans_le s.cfg.xlen_le), Bool.true_and]
    refine ⟨put_computesBits rfl fun k hk => ?clmul, put_computesBits rfl fun k hk => ?clmulh,
      put_computesBits rfl fun k hk => ?clmulr⟩
    case clmul => rw [hofNat _ hk, clmulBit_eq]; rfl
    case clmulh => rw [hofNat _ hk, Nat.testBit_shiftRight, clmulBit_eq, Nat.add_comm]; rfl
    case clmulr =>
      have hplace : s.cfg.xlen.bits - 1 + k = k + s.cfg.xlen.bits - 1 := by have := s.cfg.xlen_pos; omega
      rw [hofNat _ hk, Nat.testBit_shiftRight, clmulBit_eq, hplace]
      rfl
  case bits =>
    have hamount : s.cfg.shiftAmount (s.rx rs2) = s.xu rs2 % s.xlen := s.cfg.shiftAmount_eq _
    have hlt : s.cfg.shiftAmount (s.rx rs2) < s.xlen := hamount ▸ Nat.mod_lt _ s.cfg.xlen_pos
    rw [← hamount]
    exact ⟨clearBit_computes rfl, readBit_computes hlt rfl, invertBit_computes rfl, setBit_computes rfl,
      fun hn => ⟨clearBit_computes rfl, readBit_computes hn rfl, invertBit_computes rfl, setBit_computes rfl⟩⟩

end Machine

end Sys2Proof
end

section
/-! Decoding what the encoder writes gives the instruction back (30_encoding.md R151 to R190): each format has its operands in
the fields the decoder reads, and the function codes of a row lead the decoder to that row. -/

namespace Sys2Proof

theorem extractLsb'_extractLsb' {n : Nat} (x : BitVec n) {start len len' : Nat} (h : start + len ≤ len') (s : Nat) :
    (x.extractLsb' s len').extractLsb' start len = x.extractLsb' (s + start) len := by
  ext k hk
  have hin : start + k < len' := by omega
  simp [hin, Nat.add_assoc]

/-! ### The fields of the 32-bit formats -/

section

variable {f7 op : BitVec 7} {rs2 rs1 rd f5 : BitVec 5} {f3 : BitVec 3} {aq rl : Bool} {w : BitVec 32}

theorem encR_fields (h : encR f7 rs2 rs1 f3 rd op = w) :
    funct7F w = f7 ∧ rs2F w = rs2 ∧ rs1F w = rs1 ∧ funct3F w = f3 ∧ rdF w = rd ∧ opcodeF w = op ∧
      funct6F w = f7.extractLsb' 1 6 := by
  obtain ⟨rfl, rfl, rfl, rfl, rfl, rfl⟩ := encR_eq_iff.1 h
  simp only [funct7F, funct6F, extractLsb'_extractLsb', Nat.reduceAdd, Nat.reduceLeDiff, and_self]

/-- R4 format (R159). -/
theorem encR4_fields {fmt : BitVec 2} (h : encR (f5 ++ fmt) rs2 rs1 f3 rd op = w) :
    rs3F w = f5 ∧ fmtF w = fmt ∧ rs2F w = rs2 ∧ rs1F w = rs1 ∧ funct3F w = f3 ∧ rdF w = rd ∧ opcodeF w = op := by
  simpa only [append_eq_funct7F_iff, eq_comm, and_assoc] using encR_eq_iff.1 h

theorem encI_fields {imm : BitVec 12} (h : encI imm rs1 f3 rd op = w) :
    immIF w = imm ∧ rs1F w = rs1 ∧ funct3F w = f3 ∧ rdF w = rd ∧ opcodeF w = op ∧ funct6F w = imm.extractLsb' 6 6 ∧
      funct7F w = imm.extractLsb' 5 7 := by
  obtain ⟨rfl, rfl, rfl, rfl, rfl⟩ := encI_eq_iff.1 h
  simp only [immIF, funct6F, funct7F, extractLsb'_extractLsb', Nat.reduceAdd, Nat.reduceLeDiff, and_self]

/-- A shift by an immediate (R162). -/
theorem encIShift_fields {f6 shamt : BitVec 6} (h : encI (f6 ++ shamt) rs1 f3 rd op = w) :
    funct6F w = f6 ∧ shamtF w = shamt ∧ rs1F w = rs1 ∧ funct3F w = f3 ∧ rdF w = rd ∧ opcodeF w = op := by
  simpa only [append_eq_immIF_iff, eq_comm, and_assoc] using encI_eq_iff.1 h

theorem encS_fields {imm : BitVec 12} (h : encS imm rs2 rs1 f3 op = w) :
    immSF w = imm ∧ rs2F w = rs2 ∧ rs1F w = rs1 ∧ funct3F w = f3 ∧ opcodeF w = op := by
  simpa only [eq_comm] using encS_eq_iff.1 h

theorem encB_fields {imm : BitVec 12} (h : encB imm rs2 rs1 f3 op = w) :
    immBF w = imm ∧ rs2F w = rs2 ∧ rs1F w = rs1 ∧ funct3F w = f3 ∧ opcodeF w = op := by
  simpa only [eq_comm] using encB_eq_iff.1 h

theorem encU_fields {imm : BitVec 20} (h : encU imm rd op = w) : immUF w = imm ∧ rdF w = rd ∧ opcodeF w = op := by
  simpa only [eq_comm] using encU_eq_iff.1 h

theorem encJ_fields {imm : BitVec 20} (h : encJ imm rd op = w) : immJF w = imm ∧ rdF w = rd ∧ opcodeF w = op := by
  simpa only [eq_comm] using encJ_eq_iff.1 h

theorem encA_fields (h : encA f5 aq rl rs2 rs1 f3 rd op = w) :
    funct5F w = f5 ∧ aqF w = aq ∧ rlF w = rl ∧ rs2F w = rs2 ∧ rs1F w = rs1 ∧ funct3F w = f3 ∧ rdF w = rd ∧
      opcodeF w = op := by
  simpa only [eq_comm] using encA_eq_iff.1 h

end

/-! ### The 32-bit opcode map -/

/-- Each row, by its major opcode. -/
theorem parse32_of_encode {i : Instr} {w : BitVec 32} (h : encode i = .word w) : parse32 w = some i := by
  cases i
  case lb | lh | lw | lbu | lhu | lwu | ld => simp [parse32, parseLoad, encI_fields (Code.word.inj h)]
  case flw | fld | flh => simp [parse32, parseLoadFp, encI_fields (Code.word.inj h)]
  case fence =>
    obtain ⟨himm, hfields⟩ := encI_fields (Code.word.inj h)
    simp [parse32, parseMiscMem, hfields, fence_eq_immIF_iff.1 himm.symm]
  case fence_i => simp [parse32, parseMiscMem, encI_fields (Code.word.inj h)]
  case addi | slti | sltiu | xori | ori | andi | clz | ctz | cpop | sext_b | sext_h | orc_b | rev8_rv32 | rev8_rv64 =>
    simp [parse32, parseOpImm, encI_fields (Code.word.inj h)]
  case slli | srli | srai | rori | bclri | bexti | binvi | bseti =>
    simp [parse32, parseOpImm, encIShift_fields (Code.word.inj h)]
  case auipc | lui => simp [parse32, encU_fields (Code.word.inj h)]
  case addiw | clzw | ctzw | cpopw => simp [parse32, parseOpImm32, encI_fields (Code.word.inj h)]
  case slli_uw => simp [parse32, parseOpImm32, encIShift_fields (Code.word.inj h)]
  case slliw | srliw | sraiw | roriw => simp [parse32, parseOpImm32, encR_fields (Code.word.inj h)]
  case sb | sh | sw | sd => simp [parse32, parseStore, encS_fields (Code.word.inj h)]
  case fsw | fsd | fsh => simp [parse32, parseStoreFp, encS_fields (Code.word.inj h)]
  case lr_w | sc_w | amoswap_w | amoadd_w | amoxor_w | amoand_w | amoor_w | amomin_w | amomax_w | amominu_w | amomaxu_w =>
    simp [parse32, parseAmoW, encA_fields (Code.word.inj h)]
  case lr_d | sc_d | amoswap_d | amoadd_d | amoxor_d | amoand_d | amoor_d | amomin_d | amomax_d | amominu_d | amomaxu_d =>
    simp [parse32, parseAmoD, encA_fields (Code.word.inj h)]
  case add | sub | sll | slt | sltu | xor | srl | sra | or | and | mul | mulh | mulhsu | mulhu | div | divu | rem | remu |
      sh1add | sh2add | sh3add | andn | orn | xnor | max | maxu | min | minu | zext_h_rv32 | rol | ror | clmul | clmulh |
      clmulr | bclr | bext | binv | bset | czero_eqz | czero_nez =>
    obtain ⟨h7, h2, h1, h3, hd, hop, -⟩ := encR_fields (Code.word.inj h)
    unfold parse32 parseOp
    rewrite [hop, h7, h2, h1, h3, hd]
    rfl
  case addw | subw | sllw | srlw | sraw | mulw | divw | divuw | remw | remuw | add_uw | sh1add_uw | sh2add_uw | sh3add_uw |
      zext_h_rv64 | rolw | rorw =>
    obtain ⟨h7, h2, h1, h3, hd, hop, -⟩ := encR_fields (Code.word.inj h)
    unfold parse32 parseOp32
    rewrite [hop, h7, h2, h1, h3, hd]
    rfl
  case fmadd_s | fmadd_d | fmadd_h => simp [parse32, parseMadd, encR4_fields (Code.word.inj h)]
  case fmsub_s | fmsub_d | fmsub_h => simp [parse32, parseMsub, encR4_fields (Code.word.inj h)]
  case fnmsub_s | fnmsub_d | fnmsub_h => simp [parse32, parseNmsub, encR4_fields (Code.word.inj h)]
  case fnmadd_s | fnmadd_d | fnmadd_h => simp [parse32, parseNmadd, encR4_fields (Code.word.inj h)]
  case beq | bne | blt | bge | bltu | bgeu => simp [parse32, parseBranch, encB_fields (Code.word.inj h)]
  case jalr => simp [parse32, encI_fields (Code.word.inj h)]
  case jal => simp [parse32, encJ_fields (Code.word.inj h)]
  case ecall | ebreak | sret | mret | wfi => cases h; decide
  case sfence_vma => simp [parse32, parseSystem, encR_fields (Code.word.inj h)]
  case csrrw | csrrs | csrrc | csrrwi | csrrsi | csrrci => simp [parse32, parseSystem, encI_fields (Code.word.inj h)]
  case fadd_s | fsub_s | fmul_s | fdiv_s | fsqrt_s | fsgnj_s | fsgnjn_s | fsgnjx_s | fmin_s | fmax_s | feq_s | flt_s |
      fle_s | fclass_s | fcvt_w_s | fcvt_wu_s | fcvt_l_s | fcvt_lu_s | fcvt_s_w | fcvt_s_wu | fcvt_s_l | fcvt_s_lu |
      fadd_d | fsub_d | fmul_d | fdiv_d | fsqrt_d | fsgnj_d | fsgnjn_d | fsgnjx_d | fmin_d | fmax_d | feq_d | flt_d |
      fle_d | fclass_d | fcvt_w_d | fcvt_wu_d | fcvt_l_d | fcvt_lu_d | fcvt_d_w | fcvt_d_wu | fcvt_d_l | fcvt_d_lu |
      fadd_h | fsub_h | fmul_h | fdiv_h | fsqrt_h | fsgnj_h | fsgnjn_h | fsgnjx_h | fmin_h | fmax_h | feq_h | flt_h |
      fle_h | fclass_h | fcvt_w_h | fcvt_wu_h | fcvt_l_h | fcvt_lu_h | fcvt_h_w | fcvt_h_wu | fcvt_h_l | fcvt_h_lu |
      fmv_x_w | fmv_w_x | fmv_x_d | fmv_d_x | fmv_x_h | fmv_h_x | fcvt_s_d | fcvt_d_s | fcvt_s_h | fcvt_h_s | fcvt_d_h |
      fcvt_h_d | fcvt_q_h | fcvt_h_q =>
    obtain ⟨h7, h2, h1, h3, hd, hop, -⟩ := encR_fields (Code.word.inj h)
    unfold parse32 parseOpFp
    rewrite [hop, h7, h2, h1, h3, hd]
    rfl
  all_goals nomatch h

/-! ### The fields of the 16-bit formats -/

section

variable {f3 rs1 r r' : BitVec 3} {b12 b6 : BitVec 1} {m5 l5 rd : BitVec 5} {f f' op : BitVec 2} {w : BitVec 16}

theorem encC_fields (h : encC f3 b12 m5 l5 op = w) :
    cFunct3F w = f3 ∧ cBit12F w = b12 ∧ cRdF w = m5 ∧ cRs2F w = l5 ∧ cOpF w = op := by
  simpa only [eq_comm] using encC_eq_iff.1 h

/-- A register field `rd'/rs1'` below a function code (R172, R175). -/
theorem encC_fields_hi (h : encC f3 b12 (f ++ r) l5 op = w) :
    cFunct3F w = f3 ∧ cBit12F w = b12 ∧ cBits11F w = f ∧ cHiF w = r ∧ cOpF w = op ∧ cBits6F w = l5.extractLsb' 3 2 ∧
      cLoF w = l5.extractLsb' 0 3 := by
  obtain ⟨rfl, rfl, hm, rfl, rfl⟩ := encC_eq_iff.1 h
  obtain ⟨rfl, rfl⟩ := append_eq_cRdF_iff.1 hm
  simp only [cRs2F, cBits6F, cLoF, extractLsb'_extractLsb', Nat.reduceAdd, Nat.reduceLeDiff, and_self]

/-- CA (R172): two register fields, each below a function code. -/
theorem encCA_fields (h : encC f3 b12 (f ++ r) (f' ++ r') op = w) :
    cFunct3F w = f3 ∧ cBit12F w = b12 ∧ cBits11F w = f ∧ cHiF w = r ∧ cBits6F w = f' ∧ cLoF w = r' ∧ cOpF w = op ∧
      cBits12F w = b12 ++ f := by
  obtain ⟨rfl, rfl, hm, hl, rfl⟩ := encC_eq_iff.1 h
  obtain ⟨rfl, rfl⟩ := append_eq_cRdF_iff.1 hm
  obtain ⟨rfl, rfl⟩ := append_eq_cRs2F_iff.1 hl
  exact ⟨rfl, rfl, rfl, rfl, rfl, rfl, rfl, (append_eq_cBits12F_iff.2 ⟨rfl, rfl⟩).symm⟩

theorem encCI_fields {imm : BitVec 6} (h : encCI f3 imm rd op = w) :
    cFunct3F w = f3 ∧ cImm6F w = imm ∧ cRdF w = rd ∧ cOpF w = op := by
  simpa only [eq_comm] using encCI_eq_iff.1 h

/-- The shifts and `c.andi` (R172). -/
theorem encCI_fields_hi {imm : BitVec 6} (h : encCI f3 imm (f ++ r) op = w) :
    cFunct3F w = f3 ∧ cImm6F w = imm ∧ cBits11F w = f ∧ cHiF w = r ∧ cOpF w = op := by
  simpa only [append_eq_cRdF_iff, eq_comm, and_assoc] using encCI_eq_iff.1 h

theorem encCIW_fields {imm : BitVec 8} (h : encCIW imm r = w) :
    cFunct3F w = 0b000#3 ∧ cImmCIWF w = imm ∧ cLoF w = r ∧ cOpF w = 0b00#2 := by
  simpa only [eq_comm] using encCIW_eq_iff.1 h

theorem encCL8_fields {uimm : BitVec 5} (h : encCL8 f3 uimm rs1 r = w) :
    cFunct3F w = f3 ∧ cUimm8F w = uimm ∧ cHiF w = rs1 ∧ cLoF w = r ∧ cOpF w = 0b00#2 := by
  simpa only [eq_comm] using encCL8_eq_iff.1 h

theorem encCL4_fields {uimm : BitVec 5} (h : encCL4 f3 uimm rs1 r = w) :
    cFunct3F w = f3 ∧ cUimm4F w = uimm ∧ cHiF w = rs1 ∧ cLoF w = r ∧ cOpF w = 0b00#2 := by
  simpa only [eq_comm] using encCL4_eq_iff.1 h

theorem encC16_fields {imm : BitVec 6} (h : encC16 imm = w) :
    cFunct3F w = 0b011#3 ∧ cImm16F w = imm ∧ cRdF w = 2#5 ∧ cOpF w = 0b01#2 := by
  simpa only [eq_comm] using encC16_eq_iff.1 h

theorem encCSP8_fields {uimm : BitVec 6} (h : encCSP8 f3 uimm rd = w) :
    cFunct3F w = f3 ∧ cUimmSP8F w = uimm ∧ cRdF w = rd ∧ cOpF w = 0b10#2 := by
  simpa only [eq_comm] using encCSP8_eq_iff.1 h

theorem encCSP4_fields {uimm : BitVec 6} (h : encCSP4 f3 uimm rd = w) :
    cFunct3F w = f3 ∧ cUimmSP4F w = uimm ∧ cRdF w = rd ∧ cOpF w = 0b10#2 := by
  simpa only [eq_comm] using encCSP4_eq_iff.1 h

theorem encCSS8_fields {uimm : BitVec 6} (h : encCSS8 f3 uimm rd = w) :
    cFunct3F w = f3 ∧ cUimmSS8F w = uimm ∧ cRs2F w = rd ∧ cOpF w = 0b10#2 := by
  simpa only [eq_comm] using encCSS8_eq_iff.1 h

theorem encCSS4_fields {uimm : BitVec 6} (h : encCSS4 f3 uimm rd = w) :
    cFunct3F w = f3 ∧ cUimmSS4F w = uimm ∧ cRs2F w = rd ∧ cOpF w = 0b10#2 := by
  simpa only [eq_comm] using encCSS4_eq_iff.1 h

theorem encCJ_fields {imm : BitVec 11} (h : encCJ f3 imm = w) :
    cFunct3F w = f3 ∧ cImmJF w = imm ∧ cOpF w = 0b01#2 := by
  simpa only [eq_comm] using encCJ_eq_iff.1 h

theorem encCB_fields {imm : BitVec 8} (h : encCB f3 imm rs1 = w) :
    cFunct3F w = f3 ∧ cImmBF w = imm ∧ cHiF w = rs1 ∧ cOpF w = 0b01#2 := by
  simpa only [eq_comm] using encCB_eq_iff.1 h

theorem encCLB_fields {uimm : BitVec 2} (h : encCLB f uimm rs1 r = w) :
    cFunct3F w = 0b100#3 ∧ cBit12F w = 0#1 ∧ cBits11F w = f ∧ cUimmBF w = uimm ∧ cHiF w = rs1 ∧ cLoF w = r ∧
      cOpF w = 0b00#2 := by
  simpa only [eq_comm] using encCLB_eq_iff.1 h

theorem encCLH_fields {uimm : BitVec 1} (h : encCLH f b6 uimm rs1 r = w) :
    cFunct3F w = 0b100#3 ∧ cBit12F w = 0#1 ∧ cBits11F w = f ∧ cHiF w = rs1 ∧ cBit6F w = b6 ∧ cUimmHF w = uimm ∧
      cLoF w = r ∧ cOpF w = 0b00#2 := by
  simpa only [eq_comm] using encCLH_eq_iff.1 h

theorem encCMPP_fields {f5 : BitVec 5} {rlist : BitVec 4} {spimm : BitVec 2} (h : encCMPP f5 rlist spimm = w) :
    cFunct3F w = 0b101#3 ∧ cBits12F w = f5.extractLsb' 2 3 ∧ w.extractLsb' 8 2 = f5.extractLsb' 0 2 ∧
      cRlistF w = rlist ∧ cSpimmF w = spimm ∧ cOpF w = 0b10#2 := by
  obtain ⟨h3, rfl, rfl, rfl, hop⟩ := encCMPP_eq_iff.1 h
  simp only [← h3, ← hop, cBits12F, extractLsb'_extractLsb', Nat.reduceAdd, Nat.reduceLeDiff, and_self]

theorem encCMJT_fields {index : BitVec 8} (h : encCMJT index = w) :
    cFunct3F w = 0b101#3 ∧ cBits12F w = 0b000#3 ∧ cIndexF w = index ∧ cOpF w = 0b10#2 := by
  simpa only [eq_comm] using encCMJT_eq_iff.1 h

end

/-! ### The 16-bit quadrants -/

/-- What a row that is not refused says of the configuration and the operands. -/
theorem Row.of_rejected_eq_none {c : Config} {row : Row} (h : row.rejected c = none) :
    row.ext.on c = true ∧ (∀ x, row.xlen = some x → c.xlen = x) ∧ row.ok = true := by
  unfold Row.rejected at h
  grind

theorem zeros_append_index (index : BitVec 5) : (0#3 ++ index).toNat < 32 ∧ (0#3 ++ index).extractLsb' 0 5 = index := by
  refine ⟨?_, BitVec.extractLsb'_append_eq_right⟩
  rw [BitVec.toNat_append]
  simpa using index.isLt

/-- Each row that the configuration has, by its quadrant and function code. -/
theorem parse16_of_encode {c : Config} {j : CInstr} {w : BitVec 16} (hrow : (j.row c).rejected c = none)
    (h : j.encode = w) : parse16 c.xlen (c.extZcmp || c.extZcmt) w = some j := by
  obtain ⟨hon, hx, hok⟩ := Row.of_rejected_eq_none hrow
  cases j
  case c_addi4spn => simp [parse16, parseQ0, encCIW_fields h]
  case c_fld | c_fsd => simp [parse16, parseQ0, encCL8_fields h]
  case c_lw | c_sw => simp [parse16, parseQ0, encCL4_fields h]
  case c_ld | c_sd => simp [parse16, parseQ0, hx _ rfl, encCL8_fields h]
  case c_flw | c_fsw => simp [parse16, parseQ0, hx _ rfl, encCL4_fields h]
  case c_lbu | c_sb => simp [parse16, parseQ0, parseZcb, encCLB_fields h]
  case c_lhu | c_lh | c_sh => simp [parse16, parseQ0, parseZcb, encCLH_fields h]
  case c_nop | c_li => simp [parse16, parseQ1, encCI_fields h]
  case c_addi | c_lui =>
    simp [CInstr.row] at hok
    simp [parse16, parseQ1, encCI_fields h, hok]
  case c_addiw => simp [parse16, parseQ1, hx _ rfl, encCI_fields h]
  case c_jal => simp [parse16, parseQ1, hx _ rfl, encCJ_fields h]
  case c_addi16sp => simp [parse16, parseQ1, encC16_fields h]
  case c_srli | c_srai | c_andi => simp [parse16, parseQ1, parseQ1Alu, encCI_fields_hi h]
  case c_sub | c_xor | c_or | c_and | c_subw | c_addw | c_mul => simp [parse16, parseQ1, parseQ1Alu, encCA_fields h]
  case c_zext_b | c_sext_b | c_zext_h | c_sext_h | c_zext_w | c_not =>
    simp [parse16, parseQ1, parseQ1Alu, parseZcbUnary, encC_fields_hi h]
  case c_j => simp [parse16, parseQ1, encCJ_fields h]
  case c_beqz | c_bnez => simp [parse16, parseQ1, encCB_fields h]
  case c_slli => simp [parse16, parseQ2, encCI_fields h]
  case c_fldsp => simp [parse16, parseQ2, encCSP8_fields h]
  case c_lwsp => simp [parse16, parseQ2, encCSP4_fields h]
  case c_ldsp => simp [parse16, parseQ2, hx _ rfl, encCSP8_fields h]
  case c_flwsp => simp [parse16, parseQ2, hx _ rfl, encCSP4_fields h]
  case c_jr | c_mv | c_jalr | c_add =>
    simp [CInstr.row] at hok
    simp [parse16, parseQ2, encC_fields h, hok]
  case c_ebreak => subst h; rfl
  case c_fsdsp =>
    have hzc : (c.extZcmp || c.extZcmt) = false := by
      simp [CInstr.row, Ext.on] at hon
      simp [hon]
    simp [parse16, parseQ2, hzc, encCSS8_fields h]
  case c_swsp => simp [parse16, parseQ2, encCSS4_fields h]
  case c_sdsp => simp [parse16, parseQ2, hx _ rfl, encCSS8_fields h]
  case c_fswsp => simp [parse16, parseQ2, hx _ rfl, encCSS4_fields h]
  case cm_push | cm_pop | cm_popretz | cm_popret =>
    simp [CInstr.row, Ext.on] at hon
    simp [parse16, parseQ2, parseZcmpt, hon, encCMPP_fields h]
  case cm_mvsa01 | cm_mva01s =>
    simp [CInstr.row, Ext.on] at hon
    simp [parse16, parseQ2, parseZcmpt, hon, encCA_fields h]
  case cm_jt index =>
    simp [CInstr.row, Ext.on] at hon
    simp [parse16, parseQ2, parseZcmpt, hon, encCMJT_fields h, zeros_append_index]
  case cm_jalt =>
    simp [CInstr.row, Ext.on] at hon hok
    simp [parse16, parseQ2, parseZcmpt, hon, encCMJT_fields h, hok]

/-! ### The obligation -/

theorem CInstr.row_toInstr (c : Config) (j : CInstr) : j.toInstr.row c = j.row c := by cases j <;> rfl

/-- An instruction has 32 bits, or it is one of the compressed ones. -/
theorem encode_cases (i : Instr) : (∃ w, encode i = .word w) ∨ ∃ j : CInstr, encode i = .half j.encode ∧ i = j.toInstr := by
  cases i
  any_goals exact .inr ⟨_, rfl, rfl⟩
  all_goals exact .inl ⟨_, rfl⟩

/-- Settles O46: the parser reads each encoding back as the instruction, whose row the configuration has. -/
theorem encodedInstructionsDecode : Obligations.EncodedInstructionsDecode := by
  unfold Obligations.EncodedInstructionsDecode
  intro c i hwf
  have hrow : (i.row c).rejected c = none := Option.isNone_iff_eq_none.1 hwf
  obtain ⟨w, hw⟩ | ⟨j, hj, rfl⟩ := encode_cases i
  · rw [hw, decode, decode32, parse32_of_encode hw]
    simp only [hrow]
  · rw [CInstr.row_toInstr] at hrow
    rw [hj, decode, decode16, parse16_of_encode hrow rfl]
    simp only [hrow]
    rfl

end Sys2Proof
end

section
/-! Traps, returns and interrupts (60_exceptions.md R720 to R751, R765): every step answers, what trap entry and the returns
write, and which interrupt is taken. -/

namespace Sys2Proof.Machine

open Sys2Proof

/-! ### Every step answers -/

theorem State.run_answers (s : State) : ∃ t, s.run = .next t := by
  obtain ⟨t, -, hrun⟩ | ⟨e, tval, -, -, hrun⟩ | ⟨code, -, -, hrun⟩ := s.run_cases
  · exact ⟨t, hrun⟩
  · exact ⟨_, hrun⟩
  · obtain ⟨r, -, hill⟩ | ⟨i, -, hexec⟩ := execCode_cases code s
    · exact ⟨_, hrun.trans hill⟩
    · obtain ⟨t, ht, -⟩ := exec_ending i s
      exact ⟨t, hrun.trans (hexec.trans ht)⟩

/-- Settles O41: a waiting hart ticks, and an awake one takes an interrupt, a trap or ends its instruction. -/
theorem everyStepAnswers : Obligations.EveryStepAnswers := by
  unfold Obligations.EveryStepAnswers
  intro s hc
  cases hw : s.sample.waiting && !s.sample.wakes with
  | true => exact ⟨_, step_waiting hc hw⟩
  | false =>
    obtain ⟨t, ht⟩ := State.run_answers { s.sample with waiting := false }
    exact ⟨t.tick, by rw [step_awake hc hw, ht, afterStep]⟩

/-! ### Calls and breakpoints -/

theorem State.breakpointTval_eq (s : State) : s.breakpointTval = if s.cfg.ebreakTval = .pc then s.pc else 0 := by
  unfold State.breakpointTval
  cases s.cfg.ebreakTval <;> rfl

/-- Trap entry saves the address of the instruction, and counts nothing (60_exceptions.md R740). -/
theorem State.take_savesPc (s : State) (e : Exc) (tval : Word) : SavesPc s (s.take e tval) := by
  obtain ⟨-, h⟩ | ⟨-, h⟩ := s.take_cases e tval <;> rw [h]
  · exact ⟨rfl, rfl⟩
  · exact ⟨⟨rfl, rfl⟩, rfl⟩

/-- Nothing is delegated out of M-mode (60_exceptions.md R741). -/
theorem State.take_priv_of_m {s : State} (hm : s.priv = .m) (e : Exc) (tval : Word) : (s.take e tval).priv = .m := by
  obtain ⟨hd, -⟩ | ⟨-, h⟩ := s.take_cases e tval
  · simp [State.delegated, hm] at hd
  · rw [h]; rfl

/-- Settles O27: each instruction is a `raise`. -/
theorem callsAndBreakpointsTrap : Obligations.CallsAndBreakpointsTrap := by
  unfold Obligations.CallsAndBreakpointsTrap
  refine ⟨fun s => ?_, fun s e tval _ => ⟨s.take_savesPc e tval, fun _ hm => s.take_priv_of_m hm e tval⟩, fun s v => ?_⟩
  · have hcall : exec .ecall s = .next (s.take (ecallExc s.priv) 0) := rfl
    have hbreak : exec .ebreak s = .next (s.take .breakpoint s.breakpointTval) := rfl
    have hcbreak : exec .c_ebreak s = .next (s.take .breakpoint s.breakpointTval) := rfl
    rw [s.breakpointTval_eq] at hbreak hcbreak
    exact ⟨fun hp => by rwa [hp] at hcall, fun hp => by rwa [hp] at hcall, fun hp => by rwa [hp] at hcall, hbreak, hcbreak⟩
  · show (v &&& medelegMask).getLsbD 11 = false
    rw [BitVec.getLsbD_and, show medelegMask.getLsbD 11 = false from rfl, Bool.and_false]

/-! ### Trap entry -/

/-- The cause with the `Interrupt` bit at XLEN-1 as a sum (10_state.md R66). -/
theorem causeWord_eq (x : Xlen) (intr : Bool) {code : Nat} (h : code < 16) :
    causeWord x intr code = BitVec.ofNat 64 (if intr then 2 ^ (x.bits - 1) + code else code) := by
  cases intr with
  | false => rfl
  | true =>
    have hcode : code < 2 ^ (x.bits - 1) := by cases x <;> simp only [Xlen.bits] <;> omega
    have hshift : (1#64 <<< (x.bits - 1)) = BitVec.ofNat 64 (2 ^ (x.bits - 1)) := by cases x <;> rfl
    simp only [causeWord, if_true]
    rw [hshift, ← BitVec.ofNat_or, Nat.lor_comm]
    simpa using congrArg (BitVec.ofNat 64) (Nat.two_pow_add_eq_or_of_lt hcode 1).symm

theorem vector_eq (c : Config) (tvec : Word) (intr : Bool) (code : Nat) :
    vector c tvec intr code =
      if intr = true ∧ tvec.extractLsb' 0 2 = 1#2 then c.word ((tvec &&& ~~~3#64).toNat + 4 * code)
      else tvec &&& ~~~3#64 := by
  have hsum (base : Word) : base + BitVec.ofNat 64 (4 * code) = BitVec.ofInt 64 (base.toNat + 4 * code) := by
    rw [BitVec.ofInt_add, ← Config.eq_ofInt]
    exact congrArg (base + ·) (BitVec.ofInt_natCast 64 (4 * code)).symm
  simp only [vector, hsum, c.norm_ofInt]

/-- Settles O28: the entries by definition, and an exception by the one it is (R741). -/
theorem trapsEnterTheirMode : Obligations.TrapsEnterTheirMode := by
  unfold Obligations.TrapsEnterTheirMode
  refine ⟨fun s intr code epc tval hcode => ?_, fun s e tval => ?_⟩
  · simp only [State.xlen, ← causeWord_eq s.cfg.xlen intr hcode, ← vector_eq]
    refine ⟨rfl, fun hp => ?_⟩
    have hspp : decide (s.priv ≠ .u) = decide (s.priv = .s) := by revert hp; cases s.priv <;> decide
    rw [← hspp]
    rfl
  · have hd : s.delegated e.code = true ↔
        s.priv ≠ .m ∧ s.cfg.extS = true ∧ s.csr.medeleg.getLsbD e.code = true := by
      simp only [State.delegated, Bool.and_eq_true, bne_iff_ne]
      tauto
    simp only [← hd]
    rfl

/-! ### Returns -/

theorem exec_mret_legal {s : State} (hm : s.priv = .m) : exec .mret s = .next s.mret.count := if_pos (beq_iff_eq.2 hm)

theorem exec_sret_legal {s : State} (hS : s.cfg.extS = true) (hp : s.priv = .m ∨ s.priv = .s ∧ s.csr.mstatus.tsr = false) :
    exec .sret s = .next s.sret.count := if_pos (by simpa [hS] using hp)

/-- Settles O30: past its check a return is the pop of the status stack, counted; otherwise it is illegal. -/
theorem returnsRestoreTheirMode : Obligations.ReturnsRestoreTheirMode := by
  unfold Obligations.ReturnsRestoreTheirMode
  refine ⟨fun s => ⟨fun hm => ?_, fun hS hp => ?_⟩, fun s => ⟨fun hm => ?_, fun hp => ?_⟩⟩
  · have hmprv : (if s.csr.mstatus.mpp = .m then s.csr.mstatus.mprv else false) =
        (s.csr.mstatus.mprv && s.csr.mstatus.mpp == .m) := by
      cases s.csr.mstatus.mpp <;> simp
    rw [exec_mret_legal hm, State.ext_count, hmprv]
    rfl
  · rw [exec_sret_legal hS hp, State.ext_count]
    rfl
  · exact if_neg fun h => hm (beq_iff_eq.1 h)
  · refine if_neg fun h => ?_
    simp only [Bool.and_eq_true, Bool.or_eq_true, beq_iff_eq, Bool.not_eq_true'] at h
    grind

/-! ### Interrupts -/

theorem State.takeableM_iff (s : State) (i : Nat) :
    s.takeableM i = true ↔ s.pending.getLsbD i = true ∧ ¬ (s.cfg.extS = true ∧ s.csr.mideleg.getLsbD i = true) ∧
      (s.priv ≠ .m ∨ s.csr.mstatus.mie = true) := by
  cases hS : s.cfg.extS <;> simp [State.takeableM, State.intrToS, hS, and_assoc]

theorem State.takeableS_iff (s : State) (i : Nat) :
    s.takeableS i = true ↔ s.pending.getLsbD i = true ∧ (s.cfg.extS = true ∧ s.csr.mideleg.getLsbD i = true) ∧
      (s.priv = .u ∨ s.priv = .s ∧ s.csr.mstatus.sie = true) := by
  simp [State.takeableS, State.intrToS, and_assoc]

/-- The interrupt found is the first of the order that is takeable. -/
theorem find?_eq_some_of_first {p : Nat → Bool} {l : List Nat} {i : Nat}
    (h : p i = true ∧ ∃ before after, l = before ++ i :: after ∧ ∀ j ∈ before, ¬ p j = true) : l.find? p = some i := by
  obtain ⟨hi, before, after, hl, hbefore⟩ := h
  exact List.find?_eq_some_iff_append.2 ⟨hi, before, after, hl, fun j hj => by simpa using hbefore j hj⟩

/-- Settles O29: the search for an interrupt for M-mode, then for S-mode, stops at the first one of the order. -/
theorem interruptsAreTakenByPriority : Obligations.InterruptsAreTakenByPriority := by
  unfold Obligations.InterruptsAreTakenByPriority
  intro s
  simp only [← s.takeableM_iff, ← s.takeableS_iff]
  have hnone {p : Nat → Bool} (h : ∀ j ∈ interruptOrder, ¬ p j = true) : interruptOrder.find? p = none :=
    List.find?_eq_none.2 h
  refine ⟨rfl, fun i hi => ?_, fun i hM hi => ?_, fun h => ?_⟩
  · rw [State.interrupt, find?_eq_some_of_first hi]
  · rw [State.interrupt, hnone hM, find?_eq_some_of_first hi]
  · rw [State.interrupt, hnone fun j hj => (h j hj).1, hnone fun j hj => (h j hj).2]

/-! ### Waiting -/

theorem State.wakes_iff (s : State) : s.wakes = true ↔ s.pending ≠ 0 ∨ Config.spuriousWake s.draws = true := by
  simp [State.wakes]

/-- Sampling reads the inputs alone. -/
theorem State.sample_setWaiting (s : State) (b : Bool) :
    ({ s with waiting := b } : State).sample = { s.sample with waiting := b } := by
  cases h : s.env <;> simp only [State.sample, h]

theorem State.sample_eq (s : State) : s.sample = { s with lines := s.sample.lines, env := s.sample.env } := by
  unfold State.sample
  split <;> rfl

/-- Settles O43: an awake hart's run begins with the interrupt; a waiting one samples its inputs, and ticks or wakes. -/
theorem interruptsComeFirstAndWaitingHartsIdle : Obligations.InterruptsComeFirstAndWaitingHartsIdle := by
  unfold Obligations.InterruptsComeFirstAndWaitingHartsIdle
  intro s hc
  refine ⟨fun t hw hi => ?_, ?_, fun hw => ?_⟩
  · have hsample : ({ s.sample with waiting := false } : State) = s.sample := by
      rw [← s.sample_setWaiting, ← hw]
    refine step_eq_tick_of_run hc (.inl hw) ?_
    rw [hsample, State.run, hi]
  · rw [State.wakes_iff, State.sample_draws]
  · split
    · rename_i hwakes
      have hawake : step { s with waiting := false } =
          afterStep (State.run { ({ s with waiting := false } : State).sample with waiting := false }) :=
        step_awake hc (by rw [s.sample_setWaiting]; rfl)
      rw [hawake, s.sample_setWaiting]
      exact step_awake hc (by simp [hwakes])
    · rename_i hwakes
      refine ⟨_, step_waiting hc (by simp [hw, hwakes]), ?_⟩
      rw [s.sample_eq]
      rfl

end Sys2Proof.Machine
end

section
/-! The arithmetic of Zcb, the double moves of Zcmp and the table jumps of Zcmt (48_zc.md R677 to R683, R696 to R701). -/

namespace Sys2Proof

/-- The low bits of a value with zeros above them. -/
theorem Config.norm_setWidth_low (c : Config) (w : Word) {n : Nat} (hn : n ≤ 32) :
    c.norm ((w.setWidth n).setWidth 64) = c.word (c.toU w % 2 ^ n) := by
  rw [norm_eq_word, BitVec.toNat_setWidth_of_le (hn.trans (by decide)), BitVec.toNat_setWidth,
    c.toNat_mod_eq_toU_mod w hn]
  push_cast
  rfl

/-! ### The fields of the double moves (48_zc.md R697) -/

theorem sreg_ne (r : BitVec 3) : sreg r ≠ 0 ∧ sreg r ≠ 10 ∧ sreg r ≠ 11 := by
  revert r; decide

theorem sreg_injective : ∀ r r' : BitVec 3, sreg r = sreg r' → r = r' := by decide

namespace Machine

open Sys2Proof

/-! ### Two registers written in one instruction -/

theorem State.rx_wx_of_ne {r k : Reg} (h : k ≠ r) (s : State) (v : Word) : (s.wx r v).rx k = s.rx k := by
  rw [s.rx_wx, if_neg fun hk => h hk.1]

theorem State.rx_wx_of_ne_zero (s : State) {r : Reg} (hr : r ≠ 0) (v : Word) (k : Reg) :
    (s.wx r v).rx k = if k = r then s.cfg.norm v else s.rx k := by
  rw [s.rx_wx]
  exact if_congr ⟨And.left, fun h => ⟨h, h ▸ hr⟩⟩ rfl rfl

theorem State.rx_wx_wx (s : State) {r r' : Reg} (hr : r ≠ 0) (hr' : r' ≠ 0) (hne : r ≠ r') (v v' : Word) (k : Reg) :
    ((s.wx r v).wx r' v').rx k = if k = r then s.cfg.norm v else if k = r' then s.cfg.norm v' else s.rx k := by
  rw [State.rx_wx_of_ne_zero _ hr', s.rx_wx_of_ne_zero hr, State.wx_cfg]
  by_cases hk : k = r
  · rw [if_pos hk, if_pos hk, if_neg (hk ▸ hne)]
  · rw [if_neg hk, if_neg hk]

theorem State.wx_frame {s u : State} (hu : u = { s with x := u.x }) (r : Reg) (v : Word) :
    u.wx r v = { s with x := (u.wx r v).x } := by
  rw [u.wx_eq, hu]

/-- Integer registers may have changed before the instruction ended. -/
theorem OnlyX.of_setX {s t u : State} (hu : u = { s with x := u.x }) (h : OnlyX u t) : OnlyX s t := by
  obtain ⟨hrest, hmem, hcount⟩ := h
  rw [hu] at hrest hmem hcount
  exact ⟨hrest, hmem, hcount⟩

/-- An instruction that ends with two registers written changes nothing else. -/
theorem retire_wx_wx (n : Nat) (s : State) {r r' : Reg} (hr : r ≠ 0) (hr' : r' ≠ 0) (hne : r ≠ r') (v v' : Word) :
    ∃ t, retire n ((s.wx r v).wx r' v') = .next t ∧ OnlyX s t ∧ t.pc = s.nextPc n ∧
      ∀ k, t.rx k = if k = r then s.cfg.norm v else if k = r' then s.cfg.norm v' else s.rx k := by
  obtain ⟨t, ht, honly, hpc, hreg⟩ := retire_continues n ((s.wx r v).wx r' v')
  refine ⟨t, ht, honly.of_setX (State.wx_frame (s.wx_eq r v) r' v'), ?_,
    fun k => (hreg k).trans (s.rx_wx_wx hr hr' hne v v' k)⟩
  rw [hpc, ← State.after_eq, ← State.after_eq, State.after_wx, State.after_wx]

/-- Settles O13: each instruction of Zcb is a `put`; a double move writes two different registers, neither of them
x0. -/
theorem zcbAndDoubleMovesCompute : Obligations.ZcbAndDoubleMovesCompute := by
  unfold Obligations.ZcbAndDoubleMovesCompute
  refine ⟨fun s rd rs2 => ?zcb, fun s r1s r2s => ⟨fun hne => ?mvsa01, ?mva01s⟩⟩
  case zcb =>
    refine ⟨put_computes rfl (s.cfg.norm_setWidth_low _ (by decide)),
      put_computes rfl (s.cfg.norm_signExtend_low _ (by decide)),
      put_computes rfl (s.cfg.norm_setWidth_low _ (by decide)),
      put_computes rfl (s.cfg.norm_signExtend_low _ (by decide)),
      fun _ => put_computes rfl (s.cfg.norm_setWidth_low _ le_rfl), put_computesBits rfl fun k hk => ?not,
      put_computes rfl (s.cfg.norm_mul (s.cfg.toS_modEq _) (s.cfg.toS_modEq _))⟩
    case not => rw [s.cfg.getLsbD_not_of_lt _ hk, State.xbit_of_lt _ hk]
  case mvsa01 =>
    exact retire_wx_wx 2 s (sreg_ne r1s).1 (sreg_ne r2s).1 (fun h => hne (sreg_injective r1s r2s h)) _ _
  case mva01s => exact retire_wx_wx 2 s (by decide) (by decide) (by decide) _ _

/-! ### Table jumps -/

/-- A table entry in main memory is read and jumped to. -/
theorem tableJump_main {s : State} {index pa : Nat} (link : State → State)
    (ha : s.alignedAddr .table (s.tableAddr index) s.cfg.xlen.bytes = .ok pa) (hm : s.inMain pa s.cfg.xlen.bytes) :
    tableJump index link s =
      retireAt (BitVec.ofNat 64 (leNat s.mem pa s.cfg.xlen.bytes) &&& ~~~1#64) (link s) := by
  rw [tableJump, State.read_of_alignedAddr ha, State.physRead_main hm,
    ← memRead_toNat _ _ _ (by cases s.cfg.xlen <;> decide), BitVec.ofNat_toNat, BitVec.setWidth_eq]

/-- Settles O15: the jump to the entry, after the link where there is one. -/
theorem tableJumpsGoToTheEntry : Obligations.TableJumpsGoToTheEntry := by
  unfold Obligations.TableJumpsGoToTheEntry
  simp only [← State.tableAddr_eq]
  refine fun s index index8 pa => ⟨fun ha hm => ?jt, fun ha hm => ?jalt⟩
  case jt =>
    rw [Continues, exec_cm_jt, tableJump_main id ha hm]
    exact retireAt_continues _ s
  case jalt =>
    rw [JumpsTo, exec_cm_jalt, tableJump_main _ ha hm, State.after_eq]
    have hlink := retireAt_wrote (BitVec.ofNat 64 (leNat s.mem pa s.cfg.xlen.bytes) &&& ~~~1#64) State.ra (s.nextPc 2) s
    rwa [State.nextPc, Config.norm_word] at hlink

end Machine

end Sys2Proof
end

section
/-! The accesses of pushes and pops (48_zc.md R690, R691): what one of them does on main memory, byte by byte, and where it
fails. -/

namespace Sys2Proof.Machine

open Sys2Proof

section

variable {s t : State} {k : Access} {va v : Word} {n pa : Nat} {e : Exc} {tval : Word}

/-! ### What the address checks read -/

theorem State.alignedAddr_setMem (hu : s.untranslated k) (m : List Host.Cell) (va : Word) (n : Nat) :
    ({ s with mem := m } : State).alignedAddr k va n = s.alignedAddr k va n := by
  have hu' : ({ s with mem := m } : State).untranslated k := hu
  simp only [State.alignedAddr, State.physAddr, State.translate_of_untranslated hu', State.translate_of_untranslated hu]

theorem State.walk_setX (s : State) (x : Vector Word 32) (k : Access) (va : Word) (left ppn : Nat) :
    ({ s with x := x } : State).walk k va left ppn = s.walk k va left ppn := by
  induction left generalizing ppn with
  | zero => rfl
  | succ left ih => simp only [State.walk, ih]; rfl

/-- No check of an address reads an integer register. -/
theorem State.alignedAddr_setX (s : State) (x : Vector Word 32) (k : Access) (va : Word) (n : Nat) :
    ({ s with x := x } : State).alignedAddr k va n = s.alignedAddr k va n := by
  simp only [State.alignedAddr, State.physAddr, State.translate, State.walk_setX]
  rfl

/-! ### Main memory -/

theorem State.read_main (ha : s.alignedAddr k va n = .ok pa) (hm : s.inMain pa n) (hn : n ≤ 8) :
    s.read k va n = .ok (BitVec.ofNat 64 (leNat s.mem pa n)) := by
  rw [State.read_of_alignedAddr ha, State.physRead_main hm, ← memRead_toNat _ _ _ hn, BitVec.ofNat_toNat,
    BitVec.setWidth_eq]

theorem State.write_main (ha : s.alignedAddr k va n = .ok pa) (hm : s.inMain pa n) (v : Word) :
    ∃ t, s.write k va n v = .ok t ∧ t = { s with mem := t.mem } ∧ StoredBytes s t pa n v := by
  refine ⟨_, State.write_of_alignedAddr ha v, ?_⟩
  rw [State.physWrite_main hm]
  exact ⟨rfl, storedBytes_of_mem rfl⟩

theorem State.write_ok_eq (h : s.write k va n v = .ok t) : t = { s with mem := t.mem, clint := t.clint } := by
  obtain ⟨m, c, hw⟩ := s.write_eq k va n v
  rw [h] at hw
  obtain rfl : t = _ := hw
  rfl

theorem State.write_error_eq (h : s.write k va n v = .error (e, tval, t)) :
    t = { s with mem := t.mem, clint := t.clint } := by
  obtain ⟨m, c, hw⟩ := s.write_eq k va n v
  rw [h] at hw
  obtain rfl : t = _ := hw
  rfl

/-- The value of some bytes depends on them alone. -/
theorem leNat_congr {m m' : List Host.Cell} {a n : Nat} (h : ∀ b, a ≤ b → b < a + n → memGet m b = memGet m' b) :
    leNat m a n = leNat m' a n := by
  induction n generalizing a with
  | zero => rfl
  | succ n ih => rw [leNat, leNat, h a le_rfl (by omega), ih fun b hb hb' => h b (by omega) (by omega)]

theorem StoredBytes.leNat_eq (h : StoredBytes s t pa n v) (hn : n ≤ 8) : leNat t.mem pa n = v.toNat % 2 ^ (8 * n) := by
  rw [← memRead_memWrite_toNat s.mem pa n v hn, memRead_toNat _ _ _ hn]
  exact leNat_congr fun b _ _ => (h b).trans (memGet_memWrite ..).symm

/-! ### Misaligned accesses -/

theorem State.read_bytes {pa : Nat → Nat} (hs : s.split k va n = true) (hva : s.cfg.norm va = va) (hpos : 0 < n)
    (hn : n ≤ 8) (h : ∀ j < n, s.splitAddr k (s.byteAddr va j) = .ok (pa j)) :
    s.read k va n = .ok (BitVec.ofNat 64 (gatherNat s.mem pa n)) := by
  obtain ⟨w, hread, hval⟩ := State.read_split_ok hs hva hpos hn h
  rw [hread, ← hval, BitVec.ofNat_toNat, BitVec.setWidth_eq]

theorem State.read_byte_fails (hs : s.split k va n = true) (hr : s.splitRefused k va = false)
    (hfail : ∃ j < n, ∃ e, s.splitAddr k (s.byteAddr va j) = .error e) :
    ∃ j < n, ∃ e, s.splitAddr k (s.byteAddr va j) = .error e ∧ (e = accessFaultOf k ∨ e = pageFaultOf k) ∧
      s.read k va n = .error (e, s.byteAddr va j) := by
  obtain ⟨j, hj, hfail⟩ := hfail
  obtain ⟨l, hl, e, he, hread⟩ := State.readSplit_fails (order := s.splitOrder va n)
    ⟨j, State.mem_splitOrder.2 hj, hfail⟩ 0
  rw [← State.read_of_split hs hr] at hread
  exact ⟨l, State.mem_splitOrder.1 hl, e, he, State.splitAddr_error he, hread⟩

/-- An untranslated store completes where every byte may be accessed. -/
theorem State.write_bytes (hs : s.split k va n = true) (hva : s.cfg.norm va = va) (hpos : 0 < n) (hn : n ≤ 8)
    (hu : s.untranslated k) (h : ∀ j < n, s.splitAddr k (s.byteAddr va j) = .ok (pa + j)) (v : Word) :
    ∃ t, s.write k va n v = .ok t ∧ t = { s with mem := t.mem } ∧ StoredBytes s t pa n v := by
  have hr := State.splitRefused_eq_false (State.splitOk_of_first_byte hva (h 0 hpos))
  obtain ⟨order, c, d, hchain, ⟨rfl, hw⟩ | ⟨e, tval, -, ⟨l, hl, rfl, he, -⟩, -⟩⟩ := State.write_split_chain hs hr v
  · exact ⟨_, hw, hchain.frame le_rfl, hchain.stored hu hn h⟩
  · rw [hchain.splitAddr_eq hu le_rfl, h l (hchain.mem_order.1 (List.mem_of_getElem? hl))] at he
    cases he

theorem State.write_byte_error (hs : s.split k va n = true) (hr : s.splitRefused k va = false)
    (h : s.write k va n v = .error (e, tval, t)) :
    (e = accessFaultOf k ∨ e = pageFaultOf k) ∧ ∃ j < n, tval = s.byteAddr va j := by
  obtain ⟨order, c, d, hchain, ⟨-, hw⟩ | ⟨e', tval', -, ⟨l, hl, rfl, -, he⟩, hw⟩⟩ := State.write_split_chain hs hr v <;>
    rw [hw] at h <;> cases h
  exact ⟨he, l, hchain.mem_order.1 (List.mem_of_getElem? hl), rfl⟩

/-- An untranslated store with a byte that may not be accessed fails in such a byte. -/
theorem State.write_byte_fails (hs : s.split k va n = true) (hr : s.splitRefused k va = false) (hu : s.untranslated k)
    (hn : n ≤ 8) (hfail : ∃ j < n, ∃ e, s.splitAddr k (s.byteAddr va j) = .error e) (v : Word) :
    ∃ j < n, ∃ t, s.splitAddr k (s.byteAddr va j) = .error (accessFaultOf k) ∧
      s.write k va n v = .error (accessFaultOf k, s.byteAddr va j, t) := by
  obtain ⟨order, c, d, hchain, ⟨rfl, -⟩ | ⟨e, tval, -, ⟨l, hl, rfl, he, -⟩, hw⟩⟩ := State.write_split_chain hs hr v
  · obtain ⟨hdone, -⟩ := hchain.memory hu hn le_rfl
    obtain ⟨j, hj, e, he⟩ := hfail
    rw [hchain.take_all] at hdone
    obtain ⟨hok, -⟩ := hdone j (hchain.mem_order.2 hj)
    rw [hok] at he; cases he
  · rw [hchain.splitAddr_eq hu le_rfl] at he
    obtain rfl := State.splitAddr_error_of_untranslated hu he
    exact ⟨l, hchain.mem_order.1 (List.mem_of_getElem? hl), c d, he, hw⟩

end

/-! ### The slots -/

section

variable {s t u : State} {l : List Reg} {r : Reg} {top : Int} {n j : Nat} {c : Nat → State} {e : Exc} {tval : Word}

theorem xlenBytes_pos (x : Xlen) : 0 < x.bytes := by cases x <;> decide

theorem xlenBytes_le (x : Xlen) : x.bytes ≤ 8 := by cases x <;> decide

theorem eight_mul_xlenBytes (x : Xlen) : 8 * x.bytes = x.bits := by cases x <;> rfl

theorem State.slot_of_cfg (h : t.cfg = s.cfg) (top : Int) (j : Nat) : t.slot top j = s.slot top j := by
  simp only [State.slot, h]

theorem toNat_word_modEq (g : Config) (i : Int) : ((g.word i).toNat : Int) ≡ i [ZMOD 2 ^ g.xlen.bits] := by
  rw [← g.norm_ofInt, g.norm_toNat]
  push_cast
  exact (Int.mod_modEq _ _).trans (g.toNat_ofInt_modEq i)

/-- The slots after the first are those of the accesses that follow it. -/
theorem State.slot_tail (s : State) (top : Int) (j : Nat) :
    s.slot (top - s.cfg.xlen.bytes) j = s.slot top (j + 1) := by
  rw [State.slot, State.slot]
  congr 1; push_cast; ring

theorem State.norm_slot_sub (s : State) (top : Int) :
    s.cfg.norm (s.slot top 0 - BitVec.ofNat 64 s.cfg.xlen.bytes) = s.slot (top - s.cfg.xlen.bytes) 0 := by
  have hbytes : ((BitVec.ofNat 64 s.cfg.xlen.bytes).toNat : Int) ≡ s.cfg.xlen.bytes [ZMOD 2 ^ s.cfg.xlen.bits] := by
    rw [← BitVec.ofInt_natCast]
    exact s.cfg.toNat_ofInt_modEq _
  rw [State.slot, s.cfg.norm_sub (toNat_word_modEq _ _) hbytes, State.slot]
  congr 1; push_cast; ring

/-- The states of a chain with one more before them. -/
def chainCons (s : State) (c : Nat → State) : Nat → State
  | 0 => s
  | j + 1 => c j

/-! ### The stores of a push -/

/-- `PushesTo` for the stores of any registers (48_zc.md R691 (a)). -/
def StoresInTurn (s : State) (l : List Reg) (top : Int) (c : Nat → State) (n : Nat) : Prop :=
  c 0 = s ∧ ∀ j < n, ∃ r, l[j]? = some r ∧
    (c j).write .push (s.slot top j) s.cfg.xlen.bytes (s.rx r) = .ok (c (j + 1))

theorem pushesTo_iff (s : State) (rlist : BitVec 4) (c : Nat → State) (n : Nat) :
    PushesTo s rlist c n ↔ StoresInTurn s (listRegs rlist) s.pushTop c n := Iff.rfl

theorem StoresInTurn.start (h : StoresInTurn s l top c n) : c 0 = s := h.1

theorem StoresInTurn.step (h : StoresInTurn s l top c n) (hj : j < n) :
    ∃ r, l[j]? = some r ∧ (c j).write .push (s.slot top j) s.cfg.xlen.bytes (s.rx r) = .ok (c (j + 1)) := h.2 j hj

theorem StoresInTurn.zero (s : State) (l : List Reg) (top : Int) : StoresInTurn s l top (fun _ => s) 0 :=
  ⟨rfl, fun _ h => absurd h (Nat.not_lt_zero _)⟩

theorem StoresInTurn.cons (hcfg : t.cfg = s.cfg) (hx : t.x = s.x)
    (hw : s.write .push (s.slot top 0) s.cfg.xlen.bytes (s.rx r) = .ok t)
    (h : StoresInTurn t l (top - s.cfg.xlen.bytes) c n) : StoresInTurn s (r :: l) top (chainCons s c) (n + 1) := by
  refine ⟨rfl, fun j hj => ?_⟩
  cases j with
  | zero => exact ⟨r, rfl, hw.trans (congrArg _ h.start.symm)⟩
  | succ j =>
    obtain ⟨r', hr', hw'⟩ := h.step (Nat.lt_of_succ_lt_succ hj)
    rw [hcfg, State.slot_of_cfg hcfg, s.slot_tail, State.rx_congr s t hx] at hw'
    exact ⟨r', hr', hw'⟩

/-- The stores change memory and the CLINT alone. -/
theorem StoresInTurn.frame (h : StoresInTurn s l top c n) (hj : j ≤ n) :
    c j = { s with mem := (c j).mem, clint := (c j).clint } := by
  induction j with
  | zero => rw [h.start]
  | succ j ih =>
    obtain ⟨r, -, hw⟩ := h.step hj
    rw [State.write_ok_eq hw, ih (by omega)]

/-- A push makes its stores until one fails (48_zc.md R691). -/
theorem pushAll_chain (l : List Reg) (top : Int) (s : State) :
    ∃ (c : Nat → State) (n : Nat), n ≤ l.length ∧ StoresInTurn s l top c n ∧
      (n = l.length ∧ pushAll l (s.slot top 0) s = .ok (c n) ∨
        ∃ r e tval t, l[n]? = some r ∧
          (c n).write .push (s.slot top n) s.cfg.xlen.bytes (s.rx r) = .error (e, tval, t) ∧
          pushAll l (s.slot top 0) s = .error (e, tval, t)) := by
  induction l generalizing top s with
  | nil => exact ⟨_, 0, le_rfl, .zero s [] top, .inl ⟨rfl, rfl⟩⟩
  | cons r l ih =>
    cases hw : s.write .push (s.slot top 0) s.cfg.xlen.bytes (s.rx r) with
    | error x =>
      obtain ⟨e, tval, t⟩ := x
      exact ⟨_, 0, Nat.zero_le _, .zero s _ top, .inr ⟨r, e, tval, t, rfl, hw, by rw [pushAll, hw]⟩⟩
    | ok t =>
      have hcfg : t.cfg = s.cfg := by rw [State.write_ok_eq hw]
      have hx : t.x = s.x := by rw [State.write_ok_eq hw]
      have htail : pushAll (r :: l) (s.slot top 0) s = pushAll l (t.slot (top - s.cfg.xlen.bytes) 0) t := by
        rw [pushAll, hw, State.slot_of_cfg hcfg, ← s.norm_slot_sub, ← hcfg]
      obtain ⟨c, n, hn, hchain, hend⟩ := ih (top - s.cfg.xlen.bytes) t
      refine ⟨chainCons s c, n + 1, Nat.succ_le_succ hn, hchain.cons hcfg hx hw, ?_⟩
      rw [htail]
      obtain ⟨rfl, hok⟩ | ⟨r', e, tval, u, hr', herr, hall⟩ := hend
      · exact .inl ⟨rfl, hok⟩
      · rw [hcfg, State.slot_of_cfg hcfg, s.slot_tail, State.rx_congr s t hx] at herr
        exact .inr ⟨r', e, tval, u, hr', herr, hall⟩

/-! ### A push to main memory (48_zc.md R690) -/

section

variable {pa : Nat → Nat}

/-- The store that comes next to an untranslated slot of main memory completes. -/
theorem write_slot_main (hu : s.untranslated .push) (hframe : t = { s with mem := t.mem })
    (ha : s.alignedAddr .push (s.slot top j) s.cfg.xlen.bytes = .ok (pa j)) (hm : s.inMain (pa j) s.cfg.xlen.bytes)
    (v : Word) :
    ∃ u, t.write .push (s.slot top j) s.cfg.xlen.bytes v = .ok u ∧ u = { s with mem := u.mem } ∧
      StoredBytes t u (pa j) s.cfg.xlen.bytes v := by
  rw [hframe]
  exact State.write_main ((State.alignedAddr_setMem hu t.mem _ _).trans ha) hm v

/-- The slots of a push are `b` bytes each and come one below the other. -/
def SlotsDescend (pa : Nat → Nat) (b n : Nat) : Prop := ∀ j < n, ∀ i < j, pa j + b ≤ pa i

variable (hu : s.untranslated .push)
  (hslots : ∀ j < n, s.alignedAddr .push (s.slot top j) s.cfg.xlen.bytes = .ok (pa j) ∧ s.inMain (pa j) s.cfg.xlen.bytes)
include hu hslots

theorem StoresInTurn.step_main (h : StoresInTurn s l top c n) (hj : j < n) (hframe : c j = { s with mem := (c j).mem }) :
    ∃ r, l[j]? = some r ∧ c (j + 1) = { s with mem := (c (j + 1)).mem } ∧
      StoredBytes (c j) (c (j + 1)) (pa j) s.cfg.xlen.bytes (s.rx r) := by
  obtain ⟨r, hr, hw⟩ := h.step hj
  obtain ⟨u, hu, hmem⟩ := write_slot_main hu hframe (hslots j hj).1 (hslots j hj).2 (s.rx r)
  obtain rfl : u = c (j + 1) := Except.ok.inj (hu.symm.trans hw)
  exact ⟨r, hr, hmem⟩

theorem StoresInTurn.frame_main (h : StoresInTurn s l top c n) (hj : j ≤ n) : c j = { s with mem := (c j).mem } := by
  induction j with
  | zero => rw [h.start]
  | succ j ih =>
    obtain ⟨-, -, hframe, -⟩ := h.step_main hu hslots hj (ih (by omega))
    exact hframe

/-- After some of the stores their slots hold the registers, and every other byte is as before. -/
theorem StoresInTurn.memory (h : StoresInTurn s l top c n) (hd : SlotsDescend pa s.cfg.xlen.bytes n) (hj : j ≤ n) :
    (∀ i < j, ∀ r, l[i]? = some r → leNat (c j).mem (pa i) s.cfg.xlen.bytes = s.xu r) ∧
      ∀ a, (∀ i < j, ¬ (pa i ≤ a ∧ a < pa i + s.cfg.xlen.bytes)) → memGet (c j).mem a = memGet s.mem a := by
  induction j with
  | zero => exact ⟨fun i hi => absurd hi (Nat.not_lt_zero i), fun a _ => by rw [h.start]⟩
  | succ j ih =>
    obtain ⟨ihslots, ihrest⟩ := ih (by omega)
    obtain ⟨r, hr, -, hstored⟩ := h.step_main hu hslots hj (h.frame_main hu hslots (by omega))
    refine ⟨fun i hi r' hr' => ?_, fun a ha => ?_⟩
    · obtain rfl | hij := Nat.eq_or_lt_of_le (Nat.le_of_lt_succ hi)
      · obtain rfl : r = r' := Option.some.inj (hr.symm.trans hr')
        rw [hstored.leNat_eq (xlenBytes_le _), eight_mul_xlenBytes, State.xu, Config.toU_eq]
      · rw [← ihslots i hij r' hr']
        have hbelow := hd j hj i hij
        exact leNat_congr fun b hb _ => (hstored b).trans (if_neg (by omega))
    · rw [hstored a, if_neg (ha j (Nat.lt_succ_self j))]
      exact ihrest a fun i hi => ha i (by omega)

end

/-- A push whose slots are untranslated main memory makes all its stores. -/
theorem pushAll_main {pa : Nat → Nat} (hu : s.untranslated .push)
    (hslots : ∀ j < l.length, s.alignedAddr .push (s.slot top j) s.cfg.xlen.bytes = .ok (pa j) ∧
      s.inMain (pa j) s.cfg.xlen.bytes)
    (hd : SlotsDescend pa s.cfg.xlen.bytes l.length) :
    ∃ t, pushAll l (s.slot top 0) s = .ok t ∧ t = { s with mem := t.mem } ∧
      (∀ j r, l[j]? = some r → leNat t.mem (pa j) s.cfg.xlen.bytes = s.xu r) ∧
      ∀ a, (∀ j < l.length, ¬ (pa j ≤ a ∧ a < pa j + s.cfg.xlen.bytes)) → memGet t.mem a = memGet s.mem a := by
  obtain ⟨c, n, hn, hchain, ⟨rfl, hok⟩ | ⟨r, e, tval, t, hr, herr, -⟩⟩ := pushAll_chain l top s
  · obtain ⟨hstored, hrest⟩ := hchain.memory hu hslots hd le_rfl
    exact ⟨c l.length, hok, hchain.frame_main hu hslots le_rfl,
      fun j r hr => hstored j (List.getElem?_eq_some_iff.1 hr).1 r hr, hrest⟩
  · have hlt : n < l.length := (List.getElem?_eq_some_iff.1 hr).1
    have hframe := hchain.frame_main hu (fun j hj => hslots j (hj.trans hlt)) le_rfl
    obtain ⟨u, hw, -⟩ := write_slot_main hu hframe (hslots n hlt).1 (hslots n hlt).2 (s.rx r)
    rw [hw] at herr; cases herr

/-! ### `cm.push` -/

section

variable {rlist : BitVec 4} {spimm : BitVec 2}

theorem norm_sub_stackAdj (s : State) (rlist : BitVec 4) (spimm : BitVec 2) :
    s.cfg.norm (s.rx State.sp - stackAdj s.cfg rlist spimm) =
      s.cfg.word (s.xu State.sp - (stackAdj s.cfg rlist spimm).toNat) :=
  s.cfg.norm_sub (s.cfg.toU_modEq _) rfl

/-- After its stores a push moves `sp` down and ends. -/
theorem cm_push_of_ok (hp : pushAll (listRegs rlist) (s.slot s.pushTop 0) s = .ok u) (hcfg : u.cfg = s.cfg)
    (hpc : u.pc = s.pc) :
    ∃ t, exec (.cm_push rlist spimm) s = .next t ∧
      WroteX u t (s.nextPc 2) State.sp (s.cfg.word (s.xu State.sp - (stackAdj s.cfg rlist spimm).toNat)) := by
  obtain ⟨t, ht, hwrote⟩ := put_wrote 2 State.sp (s.rx State.sp - stackAdj s.cfg rlist spimm) u
  rw [hcfg, norm_sub_stackAdj, State.nextPc, hcfg, hpc] at hwrote
  refine ⟨t, ?_, hwrote⟩
  show execCmPush rlist spimm s = _
  rw [execCmPush, s.ea_pushTop, hp]
  exact ht

theorem cm_push_of_error (hp : pushAll (listRegs rlist) (s.slot s.pushTop 0) s = .error (e, tval, t)) :
    exec (.cm_push rlist spimm) s = .next (t.take e tval) := by
  show execCmPush rlist spimm s = _
  rw [execCmPush, s.ea_pushTop, hp]
  rfl

theorem cm_push_main (h4 : 4 ≤ rlist.toNat) {pa : Nat} (hu : s.untranslated .push)
    (hslots : ∀ j < listCount rlist,
      s.alignedAddr .push (s.slot s.pushTop j) s.cfg.xlen.bytes = .ok (pa - j * s.cfg.xlen.bytes) ∧
        s.inMain (pa - j * s.cfg.xlen.bytes) s.cfg.xlen.bytes)
    (hpa : listCount rlist * s.cfg.xlen.bytes ≤ pa) :
    ∃ t, exec (.cm_push rlist spimm) s = .next t ∧
      (∀ j r, (listRegs rlist)[j]? = some r →
        leNat t.mem (pa - j * s.cfg.xlen.bytes) s.cfg.xlen.bytes = s.xu r) ∧
      (∀ a, (∀ j < listCount rlist,
          ¬ (pa - j * s.cfg.xlen.bytes ≤ a ∧ a < pa - j * s.cfg.xlen.bytes + s.cfg.xlen.bytes)) →
        memGet t.mem a = memGet s.mem a) ∧
      WroteX { s with mem := t.mem } t (s.nextPc 2) State.sp
        (s.cfg.word (s.xu State.sp - (stackAdj s.cfg rlist spimm).toNat)) := by
  have hdescend : SlotsDescend (fun j => pa - j * s.cfg.xlen.bytes) s.cfg.xlen.bytes (listCount rlist) := by
    intro j hj i hij
    have hnext := Nat.mul_le_mul_right s.cfg.xlen.bytes (Nat.succ_le_of_lt hij)
    have hlast := Nat.mul_le_mul_right s.cfg.xlen.bytes hj
    simp only [Nat.succ_mul] at hnext hlast
    show pa - j * _ + _ ≤ pa - i * _
    omega
  rw [← listRegs_length h4] at hslots hdescend ⊢
  obtain ⟨u, hp, hframe, hstored, hrest⟩ := pushAll_main (pa := fun j => pa - j * s.cfg.xlen.bytes) hu hslots hdescend
  obtain ⟨t, ht, hwrote⟩ := cm_push_of_ok (spimm := spimm) hp (by rw [hframe]) (by rw [hframe])
  refine ⟨t, ht, ?_⟩
  rw [show t.mem = u.mem by rw [hwrote.rest], ← hframe]
  exact ⟨hstored, hrest, hwrote⟩

/-- A push in general: its stores one after another, and then its end or the exception of the store that failed. -/
theorem cm_push_chain (h4 : 4 ≤ rlist.toNat) (s : State) (spimm : BitVec 2) :
    ∃ (c : Nat → State) (n : Nat), n ≤ listCount rlist ∧ PushesTo s rlist c n ∧
      if n = listCount rlist then
        ∃ t, exec (.cm_push rlist spimm) s = .next t ∧
          WroteX (c n) t (s.nextPc 2) State.sp (s.cfg.word (s.xu State.sp - (stackAdj s.cfg rlist spimm).toNat))
      else
        ∃ r e tval t, (listRegs rlist)[n]? = some r ∧
          (c n).write .push (s.slot s.pushTop n) s.cfg.xlen.bytes (s.rx r) = .error (e, tval, t) ∧
          exec (.cm_push rlist spimm) s = .next (t.take e tval) ∧ t = { s with mem := t.mem, clint := t.clint } := by
  obtain ⟨c, n, hn, hchain, hend⟩ := pushAll_chain (listRegs rlist) s.pushTop s
  have hframe := hchain.frame le_rfl
  rw [listRegs_length h4] at hn hend
  refine ⟨c, n, hn, (pushesTo_iff ..).2 hchain, ?_⟩
  obtain ⟨rfl, hok⟩ | ⟨r, e, tval, t, hr, herr, hall⟩ := hend
  · rw [if_pos rfl]
    exact cm_push_of_ok hok (by rw [hframe]) (by rw [hframe])
  · have hlt : n < listCount rlist := listRegs_length h4 ▸ (List.getElem?_eq_some_iff.1 hr).1
    rw [if_neg hlt.ne]
    refine ⟨r, e, tval, t, hr, herr, cm_push_of_error hall, ?_⟩
    rw [State.write_error_eq herr, hframe]

end

end

/-! ### The checks of a slot (48_zc.md R691 (d)) -/

section

variable {s : State} {va : Word} {n pa : Nat}

theorem noRegion_push (h : ∀ r ∈ s.cfg.regions, r.base ≤ pa → pa + n ≤ r.base + r.size → r.kind = .io ∨ r.w = false) :
    s.noRegion .push pa n := by
  rintro r hr hbase hend ⟨-, -, hw, -, -, hmain⟩
  obtain hio | hno := h r hr hbase hend
  · rw [hmain (by decide)] at hio; cases hio
  · rw [hw (by decide)] at hno; cases hno

end

/-- Settles O36: a push is a chain of stores, on main memory of stores that complete; each store is checked and, where
misaligned, made byte by byte like any other. -/
theorem pushStoresTheList : Obligations.PushStoresTheList := by
  unfold Obligations.PushStoresTheList
  refine ⟨fun s rlist spimm pa h4 hu hslots hpa => cm_push_main h4 hu hslots hpa,
    fun s rlist spimm h4 => cm_push_chain h4 s spimm, fun s va v => ⟨fun pa ha hm => State.write_main ha hm v,
      fun ha ht => (State.failsChecks_of_misaligned ha (.inl ht) (by decide)).write v,
      fun e ha ht => ⟨State.translate_error ht, (State.failsChecks_of_translate ha ht).write v⟩,
      fun pa ha ht hr => (State.failsChecks_of_region ha ht (.inl (noRegion_push hr))).write v,
      fun pa ha hs ht hno => ?refused, fun pa ha hs hva hu hb => ?bytes⟩,
    fun s va v => fun ha hs hok => ⟨fun e tval t herr => ?error, fun hu hfail => ?fails⟩, fun s va v ha hs hok => ?chain⟩
  case refused =>
    exact State.write_of_refused (State.split_eq_true hs ha rfl) (State.splitRefused_of_noSplit ht hno) v
  case bytes =>
    exact State.write_bytes (State.split_eq_true hs ha rfl) hva (xlenBytes_pos _) (xlenBytes_le _) hu
      (fun j hj => (hb j hj).1) v
  case error =>
    exact State.write_byte_error (State.split_eq_true hs ha rfl) (State.splitRefused_eq_false hok) herr
  case fails =>
    exact State.write_byte_fails (State.split_eq_true hs ha rfl) (State.splitRefused_eq_false hok) hu (xlenBytes_le _)
      hfail v
  case chain =>
    obtain ⟨order, c, d, hchain, ⟨rfl, hw⟩ | ⟨e, tval, hd, hfails, hw⟩⟩ :=
      State.write_split_chain (State.split_eq_true (k := .push) hs ha rfl) (State.splitRefused_eq_false hok) v
    · exact ⟨order, c, _, hchain, by rwa [if_pos rfl]⟩
    · exact ⟨order, c, d, hchain, by rw [if_neg hd.ne]; exact ⟨e, tval, hfails, hw⟩⟩

end Sys2Proof.Machine
end

section
/-! The loads of `cm.pop`, `cm.popret` and `cm.popretz` (48_zc.md R691, R693 to R695). -/

namespace Sys2Proof.Machine

open Sys2Proof

section

variable {s t u : State} {l : List Reg} {r : Reg} {v : Word} {top : Int} {n j : Nat} {c : Nat → State} {e : Exc} {tval : Word}

theorem State.wx_comm {r' : Reg} (h : r ≠ r') (s : State) (v v' : Word) :
    (s.wx r v).wx r' v' = (s.wx r' v').wx r v := by
  have hne : r.toNat ≠ r'.toNat := fun he => h (BitVec.eq_of_toNat_eq he)
  unfold State.wx
  split <;> split <;> simp only [Vector.set_comm _ _ hne]

/-! ### The loads in turn -/

/-- A list names each register once, and none of x0, `sp` and x10 (48_zc.md R690). -/
theorem listRegs_registers (rlist : BitVec 4) :
    (listRegs rlist).Nodup ∧ 0 ∉ listRegs rlist ∧ State.sp ∉ listRegs rlist ∧ 10 ∉ listRegs rlist := by
  revert rlist; decide

/-- `PopsTo` for the loads of any registers (48_zc.md R691 (a)). -/
def LoadsInTurn (s : State) (l : List Reg) (top : Int) (c : Nat → State) (n : Nat) : Prop :=
  c 0 = s ∧ ∀ j < n, ∃ r v, l[j]? = some r ∧
    (c j).read .pop (s.slot top j) s.cfg.xlen.bytes = .ok v ∧ c (j + 1) = (c j).wx r v

theorem popsTo_iff (s : State) (rlist : BitVec 4) (spimm : BitVec 2) (c : Nat → State) (n : Nat) :
    PopsTo s rlist spimm c n ↔ LoadsInTurn s (listRegs rlist) (s.popTop rlist spimm) c n := Iff.rfl

theorem LoadsInTurn.start (h : LoadsInTurn s l top c n) : c 0 = s := h.1

theorem LoadsInTurn.step (h : LoadsInTurn s l top c n) (hj : j < n) :
    ∃ r v, l[j]? = some r ∧ (c j).read .pop (s.slot top j) s.cfg.xlen.bytes = .ok v ∧ c (j + 1) = (c j).wx r v := h.2 j hj

theorem LoadsInTurn.zero (s : State) (l : List Reg) (top : Int) : LoadsInTurn s l top (fun _ => s) 0 :=
  ⟨rfl, fun _ h => absurd h (Nat.not_lt_zero _)⟩

theorem LoadsInTurn.cons (hr : s.read .pop (s.slot top 0) s.cfg.xlen.bytes = .ok v)
    (h : LoadsInTurn (s.wx r v) l (top - s.cfg.xlen.bytes) c n) :
    LoadsInTurn s (r :: l) top (chainCons s c) (n + 1) := by
  refine ⟨rfl, fun j hj => ?_⟩
  cases j with
  | zero => exact ⟨r, v, rfl, hr, h.start⟩
  | succ j =>
    obtain ⟨r', v', hr', hread, hc⟩ := h.step (Nat.lt_of_succ_lt_succ hj)
    rw [State.wx_cfg, State.slot_of_cfg (s.wx_cfg r v), s.slot_tail] at hread
    exact ⟨r', v', hr', hread, hc⟩

/-- The loads change integer registers alone. -/
theorem LoadsInTurn.frame (h : LoadsInTurn s l top c n) (hj : j ≤ n) : c j = { s with x := (c j).x } := by
  induction j with
  | zero => rw [h.start]
  | succ j ih =>
    obtain ⟨r, v, -, -, hc⟩ := h.step hj
    rw [hc]
    exact State.wx_frame (ih (by omega)) r v

theorem LoadsInTurn.rx_of_notMem (h : LoadsInTurn s l top c n) (hj : j ≤ n) {k : Reg} (hk : k ∉ l) :
    (c j).rx k = s.rx k := by
  induction j with
  | zero => rw [h.start]
  | succ j ih =>
    obtain ⟨r, v, hr, -, hc⟩ := h.step hj
    rw [hc, State.rx_wx_of_ne (fun he : k = r => hk (he ▸ List.mem_of_getElem? hr)), ih (by omega)]

/-- A pop makes its loads until one fails (48_zc.md R691). -/
theorem popAll_chain (l : List Reg) (top : Int) (s : State) :
    ∃ (c : Nat → State) (n : Nat), n ≤ l.length ∧ LoadsInTurn s l top c n ∧
      (n = l.length ∧ popAll l (s.slot top 0) s = .ok (c n) ∨
        ∃ e tval, n < l.length ∧ (c n).read .pop (s.slot top n) s.cfg.xlen.bytes = .error (e, tval) ∧
          popAll l (s.slot top 0) s = .error (e, tval, c n)) := by
  induction l generalizing top s with
  | nil => exact ⟨_, 0, le_rfl, .zero s [] top, .inl ⟨rfl, rfl⟩⟩
  | cons r l ih =>
    cases hr : s.read .pop (s.slot top 0) s.cfg.xlen.bytes with
    | error x =>
      obtain ⟨e, tval⟩ := x
      exact ⟨_, 0, Nat.zero_le _, .zero s _ top, .inr ⟨e, tval, Nat.succ_pos _, hr, by rw [popAll, hr]⟩⟩
    | ok v =>
      have hcfg := s.wx_cfg r v
      have htail : popAll (r :: l) (s.slot top 0) s = popAll l ((s.wx r v).slot (top - s.cfg.xlen.bytes) 0) (s.wx r v) := by
        rw [popAll, hr, State.slot_of_cfg hcfg, ← s.norm_slot_sub]
      obtain ⟨c, n, hn, hchain, hend⟩ := ih (top - s.cfg.xlen.bytes) (s.wx r v)
      refine ⟨chainCons s c, n + 1, Nat.succ_le_succ hn, hchain.cons hr, ?_⟩
      rw [htail]
      obtain ⟨rfl, hok⟩ | ⟨e, tval, hlt, herr, hall⟩ := hend
      · exact .inl ⟨rfl, hok⟩
      · rw [hcfg, State.slot_of_cfg hcfg, s.slot_tail] at herr
        exact .inr ⟨e, tval, Nat.succ_lt_succ hlt, herr, hall⟩

/-! ### A pop from main memory (48_zc.md R690) -/

section

variable {pa : Nat → Nat}

/-- The word in a slot of main memory. -/
def State.slotWord (s : State) (pa : Nat → Nat) (j : Nat) : Word := BitVec.ofNat 64 (leNat s.mem (pa j) s.cfg.xlen.bytes)

theorem State.norm_slotWord (s : State) (pa : Nat → Nat) (j : Nat) : s.cfg.norm (s.slotWord pa j) = s.slotWord pa j := by
  rw [s.cfg.norm_eq_self_iff, State.slotWord, BitVec.toNat_ofNat, ← eight_mul_xlenBytes, leNat_eq_gatherNat]
  exact (Nat.mod_le _ _).trans_lt (gatherNat_lt _ _ _)

/-- The load that comes next from a slot of main memory completes. -/
theorem read_slot_main (hframe : t = { s with x := t.x })
    (ha : s.alignedAddr .pop (s.slot top j) s.cfg.xlen.bytes = .ok (pa j)) (hm : s.inMain (pa j) s.cfg.xlen.bytes) :
    t.read .pop (s.slot top j) s.cfg.xlen.bytes = .ok (s.slotWord pa j) := by
  rw [hframe]
  exact State.read_main ((State.alignedAddr_setX ..).trans ha) hm (xlenBytes_le _)

/-- After some of the loads their registers hold the slots. -/
theorem LoadsInTurn.rx_of_mem (h : LoadsInTurn s l top c n) (hnodup : l.Nodup) (hzero : 0 ∉ l)
    (hslots : ∀ j < n, s.alignedAddr .pop (s.slot top j) s.cfg.xlen.bytes = .ok (pa j) ∧
      s.inMain (pa j) s.cfg.xlen.bytes) (hj : j ≤ n) :
    ∀ i < j, ∀ r, l[i]? = some r → (c j).rx r = s.slotWord pa i := by
  induction j with
  | zero => exact fun i hi => absurd hi (Nat.not_lt_zero i)
  | succ j ih =>
    intro i hi r hr
    obtain ⟨r', v, hr', hread, hc⟩ := h.step hj
    obtain ⟨ha, hm⟩ := hslots j hj
    obtain rfl : s.slotWord pa j = v :=
      Except.ok.inj ((read_slot_main (h.frame (by omega)) ha hm).symm.trans hread)
    have hcfg : (c j).cfg = s.cfg := by rw [h.frame (j := j) (by omega)]
    rw [hc]
    obtain rfl | hij := Nat.eq_or_lt_of_le (Nat.le_of_lt_succ hi)
    · obtain rfl : r' = r := Option.some.inj (hr'.symm.trans hr)
      have hr0 : r' ≠ 0 := fun he => hzero (he ▸ List.mem_of_getElem? hr)
      rw [State.rx_wx, if_pos ⟨rfl, hr0⟩, hcfg, s.norm_slotWord]
    · have hne : r ≠ r' := fun he =>
        hij.ne (List.getElem?_inj (List.getElem?_eq_some_iff.1 hr).1 hnodup |>.1 (hr.trans (he ▸ hr'.symm)))
      rw [State.rx_wx_of_ne hne, ih (by omega) i hij r hr]

end

/-! ### What follows the loads -/

section

variable {rlist : BitVec 4} {spimm : BitVec 2}

/-- `sp` after a pop (48_zc.md R693). -/
def State.spAfterPop (s : State) (rlist : BitVec 4) (spimm : BitVec 2) : Word :=
  s.cfg.word (s.xu State.sp + (stackAdj s.cfg rlist spimm).toNat)

theorem norm_add_stackAdj (s : State) (rlist : BitVec 4) (spimm : BitVec 2) :
    s.cfg.norm (s.rx State.sp + stackAdj s.cfg rlist spimm) = s.spAfterPop rlist spimm :=
  s.cfg.norm_add (s.cfg.toU_modEq _) rfl

theorem popThen_of_ok (hp : popAll (listRegs rlist) (s.slot (s.popTop rlist spimm) 0) s = .ok u) (k : State → Result) :
    popThen rlist spimm s k = k (u.wx State.sp (s.rx State.sp + stackAdj s.cfg rlist spimm)) := by
  rw [popThen, s.popStart_eq, hp]

theorem popThen_of_error (hp : popAll (listRegs rlist) (s.slot (s.popTop rlist spimm) 0) s = .error (e, tval, t))
    (k : State → Result) : popThen rlist spimm s k = .next (t.take e tval) := by
  rw [popThen, s.popStart_eq, hp]
  rfl

theorem cm_pop_of_ok (hp : popAll (listRegs rlist) (s.slot (s.popTop rlist spimm) 0) s = .ok u)
    (hu : u = { s with x := u.x }) :
    ∃ t, exec (.cm_pop rlist spimm) s = .next t ∧ WroteX u t (s.nextPc 2) State.sp (s.spAfterPop rlist spimm) := by
  obtain ⟨t, ht, hwrote⟩ := put_wrote 2 State.sp (s.rx State.sp + stackAdj s.cfg rlist spimm) u
  have hcfg : u.cfg = s.cfg := by rw [hu]
  have hpc : u.pc = s.pc := by rw [hu]
  rw [State.nextPc, hpc, hcfg, norm_add_stackAdj] at hwrote
  exact ⟨t, (popThen_of_ok hp (retire 2)).trans ht, hwrote⟩

/-- The return of `cm.popret` and `cm.popretz`: to the x1 just loaded, from the state `clear` makes of the one after the
loads. -/
theorem popThen_return (hp : popAll (listRegs rlist) (s.slot (s.popTop rlist spimm) 0) s = .ok u)
    (hu : u = { s with x := u.x }) {clear : State → State}
    (hclear : ∀ v, clear (u.wx State.sp v) = (clear u).wx State.sp v) (hcfg : (clear u).cfg = u.cfg) :
    ∃ t, popThen rlist spimm s (fun t => retireAt t.retTarget (clear t)) = .next t ∧
      WroteX (clear u) t (u.rx 1 &&& ~~~1#64) State.sp (s.spAfterPop rlist spimm) := by
  obtain ⟨t, ht, hwrote⟩ :=
    retireAt_wrote (u.rx 1 &&& ~~~1#64) State.sp (s.rx State.sp + stackAdj s.cfg rlist spimm) (clear u)
  rw [hcfg, show u.cfg = s.cfg by rw [hu], norm_add_stackAdj] at hwrote
  refine ⟨t, ?_, hwrote⟩
  rw [popThen_of_ok hp, hclear, State.retTarget, State.rx_wx_of_ne (by decide)]
  exact ht

/-- What the three instructions do once their loads have completed. -/
theorem pops_end (hp : popAll (listRegs rlist) (s.slot (s.popTop rlist spimm) 0) s = .ok u)
    (hu : u = { s with x := u.x }) :
    (∃ t, exec (.cm_pop rlist spimm) s = .next t ∧ WroteX u t (s.nextPc 2) State.sp (s.spAfterPop rlist spimm)) ∧
      (∃ t, exec (.cm_popret rlist spimm) s = .next t ∧
        WroteX u t (u.rx 1 &&& ~~~1#64) State.sp (s.spAfterPop rlist spimm)) ∧
      ∃ t, exec (.cm_popretz rlist spimm) s = .next t ∧
        WroteX (u.wx 10 0) t (u.rx 1 &&& ~~~1#64) State.sp (s.spAfterPop rlist spimm) :=
  ⟨cm_pop_of_ok hp hu, popThen_return (clear := id) hp hu (fun _ => rfl) rfl,
    popThen_return (clear := fun t => t.wx 10 0) hp hu (fun _ => State.wx_comm (by decide) _ _ _) (State.wx_cfg ..)⟩

/-- The loads in general: one after another, and then the end of the instruction or the exception of the one that
failed. -/
theorem pops_chain (h4 : 4 ≤ rlist.toNat) (s : State) (spimm : BitVec 2) :
    ∃ (c : Nat → State) (n : Nat), n ≤ listCount rlist ∧ PopsTo s rlist spimm c n ∧
      if n = listCount rlist then
        (∃ t, exec (.cm_pop rlist spimm) s = .next t ∧
          WroteX (c n) t (s.nextPc 2) State.sp (s.spAfterPop rlist spimm)) ∧
        (∃ t, exec (.cm_popret rlist spimm) s = .next t ∧
          WroteX (c n) t ((c n).rx 1 &&& ~~~1#64) State.sp (s.spAfterPop rlist spimm)) ∧
        (∃ t, exec (.cm_popretz rlist spimm) s = .next t ∧
          WroteX ((c n).wx 10 0) t ((c n).rx 1 &&& ~~~1#64) State.sp (s.spAfterPop rlist spimm))
      else
        ∃ e tval, (c n).read .pop (s.slot (s.popTop rlist spimm) n) s.cfg.xlen.bytes = .error (e, tval) ∧
          (∀ i ∈ [Instr.cm_pop rlist spimm, .cm_popret rlist spimm, .cm_popretz rlist spimm],
            exec i s = .next ((c n).take e tval)) ∧
          c n = { s with x := (c n).x } ∧ (c n).rx State.sp = s.rx State.sp := by
  obtain ⟨-, -, hsp, -⟩ := listRegs_registers rlist
  obtain ⟨c, n, hn, hchain, hend⟩ := popAll_chain (listRegs rlist) (s.popTop rlist spimm) s
  have hframe := hchain.frame le_rfl
  rw [listRegs_length h4] at hn hend
  refine ⟨c, n, hn, (popsTo_iff ..).2 hchain, ?_⟩
  obtain ⟨rfl, hok⟩ | ⟨e, tval, hlt, herr, hall⟩ := hend
  · rw [if_pos rfl]
    exact pops_end hok hframe
  · rw [if_neg hlt.ne]
    refine ⟨e, tval, herr, ?_, hframe, hchain.rx_of_notMem le_rfl hsp⟩
    simp only [List.forall_mem_cons]
    exact ⟨popThen_of_error hall (retire 2), popThen_of_error hall fun t => retireAt t.retTarget t,
      popThen_of_error hall fun t => retireAt t.retTarget (t.wx 10 0), by simp⟩

end

/-! ### The three instructions on main memory -/

/-- `u` is `s` after the loads of a list whose slots hold these words; `clears` says that x10 is cleared too. -/
structure Popped (s u : State) (l : List Reg) (slot : Nat → Word) (clears : Prop) : Prop where
  frame : u = { s with x := u.x }
  loaded : ∀ j r, l[j]? = some r → u.rx r = slot j
  kept : ∀ r, r ∉ l → (r = 10 → ¬ clears) → u.rx r = s.rx r
  cleared : clears → u.rx 10 = 0

theorem Popped.clear {slot : Nat → Word} (h : Popped s u l slot False) (h10 : 10 ∉ l) :
    Popped s (u.wx 10 0) l slot True where
  frame := State.wx_frame h.frame 10 0
  loaded j r hr := by
    rw [State.rx_wx_of_ne fun he : r = 10 => h10 (he ▸ List.mem_of_getElem? hr), h.loaded j r hr]
  kept r hr hne := by
    rw [State.rx_wx_of_ne fun he : r = 10 => hne he trivial, h.kept r hr fun _ => id]
  cleared _ := by
    rw [State.rx_wx, if_pos ⟨rfl, by decide⟩, u.cfg.norm_of_lt (by decide)]

/-- The loads of a list in main memory all complete. -/
theorem popAll_main {pa : Nat → Nat} (hnodup : l.Nodup) (hzero : 0 ∉ l)
    (hslots : ∀ j < l.length, s.alignedAddr .pop (s.slot top j) s.cfg.xlen.bytes = .ok (pa j) ∧
      s.inMain (pa j) s.cfg.xlen.bytes) :
    ∃ u, popAll l (s.slot top 0) s = .ok u ∧ Popped s u l (s.slotWord pa) False := by
  obtain ⟨c, n, hn, hchain, ⟨rfl, hok⟩ | ⟨e, tval, hlt, herr, -⟩⟩ := popAll_chain l top s
  · exact ⟨_, hok, hchain.frame le_rfl,
      fun j r hr => hchain.rx_of_mem hnodup hzero hslots le_rfl j (List.getElem?_eq_some_iff.1 hr).1 r hr,
      fun r hr _ => hchain.rx_of_notMem le_rfl hr, False.elim⟩
  · obtain ⟨ha, hm⟩ := hslots n hlt
    rw [read_slot_main (hchain.frame le_rfl) ha hm] at herr
    cases herr

/-- What the obligation says of the state after a pop. -/
def Pops (s t : State) (l : List Reg) (slot : Nat → Word) (newSp : Word) (clears : Prop) : Prop :=
  OnlyX s t ∧ t.rx State.sp = newSp ∧ (∀ j r, l[j]? = some r → t.rx r = slot j) ∧
    (∀ r, r ≠ State.sp → r ∉ l → (r = 10 → ¬ clears) → t.rx r = s.rx r) ∧ (clears → t.rx 10 = 0)

theorem Popped.pops {slot : Nat → Word} {clears : Prop} {next newSp : Word} (h : Popped s u l slot clears)
    (hsp : State.sp ∉ l) (hwrote : WroteX u t next State.sp newSp) :
    Pops s t l slot newSp clears ∧ t.pc = next ∧ t.rx 1 = u.rx 1 := by
  have hreg : ∀ r, r ≠ State.sp → t.rx r = u.rx r := fun r hr => by rw [hwrote.reg, if_neg fun he => hr he.1]
  refine ⟨⟨hwrote.toOnlyX.of_setX h.frame, ?_, fun j r hr => ?_, fun r hne hr h10 => ?_, fun hc => ?_⟩, hwrote.pc,
    hreg 1 (by decide)⟩
  · rw [hwrote.reg, if_pos ⟨rfl, by decide⟩]
  · rw [hreg r fun he => hsp (he ▸ List.mem_of_getElem? hr), h.loaded j r hr]
  · rw [hreg r hne, h.kept r hr h10]
  · rw [hreg 10 (by decide), h.cleared hc]

theorem pops_main {rlist : BitVec 4} {spimm : BitVec 2} {pa : Nat → Nat} (h4 : 4 ≤ rlist.toNat)
    (hslots : ∀ j < listCount rlist,
      s.alignedAddr .pop (s.slot (s.popTop rlist spimm) j) s.cfg.xlen.bytes = .ok (pa j) ∧
        s.inMain (pa j) s.cfg.xlen.bytes) :
    let pops := fun t => Pops s t (listRegs rlist) (s.slotWord pa) (s.spAfterPop rlist spimm)
    (∃ t, exec (.cm_pop rlist spimm) s = .next t ∧ pops t False ∧ t.pc = s.nextPc 2) ∧
      (∃ t, exec (.cm_popret rlist spimm) s = .next t ∧ pops t False ∧ t.pc = t.rx 1 &&& ~~~1#64) ∧
      ∃ t, exec (.cm_popretz rlist spimm) s = .next t ∧ pops t True ∧ t.pc = t.rx 1 &&& ~~~1#64 := by
  obtain ⟨hnodup, hzero, hsp, h10⟩ := listRegs_registers rlist
  rw [← listRegs_length h4] at hslots
  obtain ⟨u, hp, hpopped⟩ := popAll_main hnodup hzero hslots
  obtain ⟨⟨t, ht, hwrote⟩, ⟨tret, htret, hwroteRet⟩, ⟨tretz, htretz, hwroteRetz⟩⟩ := pops_end hp hpopped.frame
  obtain ⟨hpops, hpc, -⟩ := hpopped.pops hsp hwrote
  obtain ⟨hpopsRet, hpcRet, hraRet⟩ := hpopped.pops hsp hwroteRet
  obtain ⟨hpopsRetz, hpcRetz, hraRetz⟩ := (hpopped.clear h10).pops hsp hwroteRetz
  rw [State.rx_wx_of_ne (by decide)] at hraRetz
  exact ⟨⟨t, ht, hpops, hpc⟩, ⟨tret, htret, hpopsRet, hraRet ▸ hpcRet⟩, tretz, htretz, hpopsRetz, hraRetz ▸ hpcRetz⟩

end

/-! ### The checks of a slot (48_zc.md R691 (d)) -/

theorem noRegion_pop {s : State} {pa n : Nat}
    (h : ∀ r ∈ s.cfg.regions, r.base ≤ pa → pa + n ≤ r.base + r.size → r.kind = .io ∨ r.r = false) :
    s.noRegion .pop pa n := by
  rintro r hr hbase hend ⟨-, hread, -, -, -, hmain⟩
  obtain hio | hno := h r hr hbase hend
  · rw [hmain (by decide)] at hio; cases hio
  · rw [hread (by decide)] at hno; cases hno

/-- Settles O37: a pop is a chain of loads, on main memory of loads that complete; each load is checked and, where
misaligned, made byte by byte like any other. -/
theorem popsLoadTheList : Obligations.PopsLoadTheList := by
  unfold Obligations.PopsLoadTheList
  refine ⟨fun s rlist spimm pa h4 hslots => pops_main h4 hslots, fun s rlist spimm h4 => pops_chain h4 s spimm,
    fun s va => ⟨fun pa ha hm => State.read_main ha hm (xlenBytes_le _),
      fun ha ht => (State.failsChecks_of_misaligned ha (.inl ht) (by decide)).read,
      fun e ha ht => ⟨State.translate_error ht, (State.failsChecks_of_translate ha ht).read⟩,
      fun pa ha ht hr => (State.failsChecks_of_region ha ht (.inl (noRegion_pop hr))).read,
      fun pa ha hs ht hno => ?refused, fun pa ha hs hva hb => ?bytes⟩,
    fun s va ha hs hok hfail => ?fails, fun s va pa ha hs hva hpa => ?gathers⟩
  case refused => exact State.read_of_refused (State.split_eq_true hs ha rfl) (State.splitRefused_of_noSplit ht hno)
  case bytes =>
    rw [leNat_eq_gatherNat]
    exact State.read_bytes (State.split_eq_true hs ha rfl) hva (xlenBytes_pos _) (xlenBytes_le _) fun j hj => (hb j hj).1
  case fails =>
    exact State.read_byte_fails (State.split_eq_true hs ha rfl) (State.splitRefused_eq_false hok) hfail
  case gathers =>
    exact State.read_bytes (State.split_eq_true hs ha rfl) hva (xlenBytes_pos _) (xlenBytes_le _) hpa

end Sys2Proof.Machine
end
